-- ==== Sys2Proof/Word.lean ====
section
/-!
DEFINITION. The value types of the hardware: words and bytes (00_scope.md R10, R13 to R15, R17).
Every value is unsigned, and bit 0 is the least significant bit.
-/

namespace Sys2Proof

/-- A word: "an unsigned 32-bit integer" (R10, R18). -/
abbrev Word := BitVec 32

/-- A byte: 8 bits (R15). -/
abbrev Byte := BitVec 8

/-- The block buffer as the spec names it: sixteen registers of 32 bits, `X[0]` to `X[15]` (R35). -/
abbrev Buffer := Vector Word 16

end Sys2Proof
end

