-- ==== Sys2Proof/Machine/Datapath.lean ====
section
/-!
DEFINITION. The combinational units of 43_datapath_units.md: the 32-bit modular adder, the barrel shifter, the bitwise
operation unit, the round functions F, G, H, I and the step function. Pure functions: no state, no flag, no exception.
-/

namespace Sys2Proof.Machine

/-- `ADD32(x, y) = (x + y) mod 2^32` (R201); the carry out is discarded. -/
def add32 (x y : Word) : Word := x + y

/-- `SUM4(w, x, y, z)`, the four-operand sum modulo 2^32 (R202). -/
def sum4 (w x y z : Word) : Word := add32 (add32 (add32 w x) y) z

/-- `ROTL32(x, s)`: circular left shift by a 5-bit amount, 0 included (R203, R204). -/
def rotl32 (x : Word) (s : BitVec 5) : Word := x.rotateLeft s.toNat

/-- `AND32(x, y)` (R205). -/
def and32 (x y : Word) : Word := x &&& y

/-- `OR32(x, y)` (R206). -/
def or32 (x y : Word) : Word := x ||| y

/-- `XOR32(x, y)` (R207). -/
def xor32 (x y : Word) : Word := x ^^^ y

/-- `NOT32(x)` (R208): the 32 bits inverted, nothing beyond bit 31. -/
def not32 (x : Word) : Word := ~~~x

/-- `F(X, Y, Z) = (X AND Y) OR (NOT X AND Z)` (R210). -/
def roundF (x y z : Word) : Word := or32 (and32 x y) (and32 (not32 x) z)

/-- `G(X, Y, Z) = (X AND Z) OR (Y AND NOT Z)` (R211). -/
def roundG (x y z : Word) : Word := or32 (and32 x z) (and32 y (not32 z))

/-- `H(X, Y, Z) = X XOR Y XOR Z` (R212). -/
def roundH (x y z : Word) : Word := xor32 (xor32 x y) z

/-- `I(X, Y, Z) = Y XOR (X OR NOT Z)` (R213). -/
def roundI (x y z : Word) : Word := xor32 y (or32 x (not32 z))

/-- `FSEL(fsel, X, Y, Z)`: F for 0, G for 1, H for 2, I for 3 (R216). -/
def fsel (f : BitVec 2) (x y z : Word) : Word :=
  if f = 0#2 then roundF x y z
  else if f = 1#2 then roundG x y z
  else if f = 2#2 then roundH x y z
  else roundI x y z

/-- `STEPFN(ra, rb, rc, rd, x, t, s, fsel)` (R217): only the four-operand sum is rotated, `rb` is added after. -/
def stepFn (ra rb rc rd x t : Word) (s : BitVec 5) (f : BitVec 2) : Word :=
  add32 rb (rotl32 (sum4 ra (fsel f rb rc rd) x t) s)

end Sys2Proof.Machine
end

