-- ==== Sys2Proof/Config.lean ====
section
/-!
DEFINITION. The constants of this hardware that no run changes: widths and counts (00_scope.md R10, R11),
the open parameter CYCLES (R12), the codes of the control phases (10_state.md R39).
The contents of the ROMs and the IV are constants too (R21): they stand in Machine/Rom.lean.
The hardware leaves no instruction result undefined, so the model has no free value.
-/

namespace Sys2Proof.Config

/-- Block size in bytes, `BLOCK_BYTES` (R10). -/
def blockBytes : Nat := 64

/-- Micro-operations `STEP i` per block, `NSTEPS` (R10). -/
def nSteps : Nat := 64

/-- `CYCLES`, the number of clock edges one micro-operation takes (R12): "This spec's hardware takes 1 for every
micro-operation". DESIGN CHOICE, safe, log entry 8: the model takes that value, and a step is one edge. -/
def cycles : Nat := 1

/-- Phase `ABSORB`: waiting for a command, a message is open (R39). -/
abbrev phAbsorb : BitVec 3 := 0#3
/-- Phase `COMP`: compressing the block in `X` (R39). -/
abbrev phComp : BitVec 3 := 1#3
/-- Phase `PADF`: about to format the first padding block (R39). -/
abbrev phPadf : BitVec 3 := 2#3
/-- Phase `PADL`: about to format the length-only padding block (R39). -/
abbrev phPadl : BitVec 3 := 3#3
/-- Phase `DONE`: digest valid, waiting for `INIT` (R39). -/
abbrev phDone : BitVec 3 := 4#3

end Sys2Proof.Config
end

