-- ==== Sys2Proof/Syntax.lean ====
section
/-!
DEFINITION. The instructions of the hardware: the four host commands and the 68 micro-operations, one constructor
per row of spec/opcode_table.json (30_encoding.md R103, R107, R113), and the two forms in which the control unit
receives one: a command word on the port, or the selection by the registers (PH, STEP).
-/

namespace Sys2Proof

/-- One constructor per row of spec/opcode_table.json. The only operand of the hardware is the message byte of
`DATA` (R104); the payload of `INIT`, `FINAL` and `RSVD` "is not examined" (R105, log entry 14). -/
inductive Instr where
  /-- `INIT` (R135): start a new message. -/
  | init
  /-- `DATA v` (R136): append the byte `v` to the open message. -/
  | data (v : Byte)
  /-- `FINAL` (R137): close the message. -/
  | final
  /-- `RSVD` (R138): the reserved operation code; raises ProtocolError. -/
  | rsvd
  /-- `PADF` (R166): format the first (or only) padding block. -/
  | padf
  /-- `PADL` (R168): format the second, length-only padding block. -/
  | padl
  /-- `LOAD` (R262): block entry, copy the chaining registers to the working registers. -/
  | load
  /-- `STEP 1` (R265). -/
  | step1
  /-- `STEP 2` (R266). -/
  | step2
  /-- `STEP 3` (R267). -/
  | step3
  /-- `STEP 4` (R268). -/
  | step4
  /-- `STEP 5` (R269). -/
  | step5
  /-- `STEP 6` (R270). -/
  | step6
  /-- `STEP 7` (R271). -/
  | step7
  /-- `STEP 8` (R272). -/
  | step8
  /-- `STEP 9` (R273). -/
  | step9
  /-- `STEP 10` (R274). -/
  | step10
  /-- `STEP 11` (R275). -/
  | step11
  /-- `STEP 12` (R276). -/
  | step12
  /-- `STEP 13` (R277). -/
  | step13
  /-- `STEP 14` (R278). -/
  | step14
  /-- `STEP 15` (R279). -/
  | step15
  /-- `STEP 16` (R280). -/
  | step16
  /-- `STEP 17` (R281). -/
  | step17
  /-- `STEP 18` (R282). -/
  | step18
  /-- `STEP 19` (R283). -/
  | step19
  /-- `STEP 20` (R284). -/
  | step20
  /-- `STEP 21` (R285). -/
  | step21
  /-- `STEP 22` (R286). -/
  | step22
  /-- `STEP 23` (R287). -/
  | step23
  /-- `STEP 24` (R288). -/
  | step24
  /-- `STEP 25` (R289). -/
  | step25
  /-- `STEP 26` (R290). -/
  | step26
  /-- `STEP 27` (R291). -/
  | step27
  /-- `STEP 28` (R292). -/
  | step28
  /-- `STEP 29` (R293). -/
  | step29
  /-- `STEP 30` (R294). -/
  | step30
  /-- `STEP 31` (R295). -/
  | step31
  /-- `STEP 32` (R296). -/
  | step32
  /-- `STEP 33` (R297). -/
  | step33
  /-- `STEP 34` (R298). -/
  | step34
  /-- `STEP 35` (R299). -/
  | step35
  /-- `STEP 36` (R300). -/
  | step36
  /-- `STEP 37` (R301). -/
  | step37
  /-- `STEP 38` (R302). -/
  | step38
  /-- `STEP 39` (R303). -/
  | step39
  /-- `STEP 40` (R304). -/
  | step40
  /-- `STEP 41` (R305). -/
  | step41
  /-- `STEP 42` (R306). -/
  | step42
  /-- `STEP 43` (R307). -/
  | step43
  /-- `STEP 44` (R308). -/
  | step44
  /-- `STEP 45` (R309). -/
  | step45
  /-- `STEP 46` (R310). -/
  | step46
  /-- `STEP 47` (R311). -/
  | step47
  /-- `STEP 48` (R312). -/
  | step48
  /-- `STEP 49` (R313). -/
  | step49
  /-- `STEP 50` (R314). -/
  | step50
  /-- `STEP 51` (R315). -/
  | step51
  /-- `STEP 52` (R316). -/
  | step52
  /-- `STEP 53` (R317). -/
  | step53
  /-- `STEP 54` (R318). -/
  | step54
  /-- `STEP 55` (R319). -/
  | step55
  /-- `STEP 56` (R320). -/
  | step56
  /-- `STEP 57` (R321). -/
  | step57
  /-- `STEP 58` (R322). -/
  | step58
  /-- `STEP 59` (R323). -/
  | step59
  /-- `STEP 60` (R324). -/
  | step60
  /-- `STEP 61` (R325). -/
  | step61
  /-- `STEP 62` (R326). -/
  | step62
  /-- `STEP 63` (R327). -/
  | step63
  /-- `STEP 64` (R328). -/
  | step64
  /-- `ADDBACK` (R330): add the working registers to the chaining registers and return. -/
  | addback
  deriving DecidableEq, Repr

/-- What the control unit decodes (R44): the command word accepted on the port (format CMD10, R102), or the pair of
registers `{PH, STEP}` that selects a micro-operation (format USEL, R107: `PH` in bits 9:7, `STEP` in bits 6:0). -/
inductive Fetched where
  | command (w : BitVec 10)
  | selector (usel : BitVec 10)
  deriving DecidableEq, Repr

/-- Why a selection names no micro-operation (R107: "Every other (`PH`, `STEP`) pair is unreachable"). -/
inductive DecodeError where
  /-- `PH` is `ABSORB` or `DONE` and `STEP` is 0: none is selected, the port is ready. -/
  | portReady
  /-- `PH` is 5, 6 or 7. -/
  | noSuchPhase
  /-- `PH` is `COMP` and `STEP` is 66 to 127. -/
  | stepBeyondAddback
  /-- `STEP` is not 0 although `PH` is a phase other than `COMP`. -/
  | stepOutsideComp
  deriving DecidableEq, Repr

end Sys2Proof
end

