-- ==== Sys2Proof/WellFormed.lean ====
section
/-!
DEFINITION. Well-formed instructions and well-formed fetched forms.
An instruction's only operand is a byte, which its type bounds, so every instruction is well formed; what can be
ill formed is a selection {PH, STEP} (30_encoding.md R107) and a schedule ROM word (R108).
-/

namespace Sys2Proof

/-- Every instruction of the type is one the hardware has: the message byte is 8 bits by its type (R104), and no
other constructor has an operand. -/
def Instr.wellFormed (_ : Instr) : Bool := true

/-- A phase that executes micro-operations: `COMP`, `PADF` or `PADL` (R107). -/
def phaseHasMicroOps (ph : BitVec 3) : Bool :=
  ph == Config.phComp || ph == Config.phPadf || ph == Config.phPadl

/-- `STEP` names a micro-operation of the phase: 0 to 65 in `COMP`, 0 elsewhere (R107). -/
def stepInPhase (ph : BitVec 3) (st : BitVec 7) : Bool :=
  if ph = Config.phComp then decide (st.toNat ≤ 65) else st == 0#7

/-- Every 10-bit word is a command (R103); a selection is well formed when it is a row of R107. -/
def Fetched.wellFormed : Fetched → Bool
  | .command _ => true
  | .selector u => phaseHasMicroOps (u.extractLsb' 7 3) && stepInPhase (u.extractLsb' 7 3) (u.extractLsb' 0 7)

/-- The rotation amounts a schedule word may hold (R108, "values used"). -/
def scheduleAmounts : List Nat := [4, 5, 6, 7, 9, 10, 11, 12, 14, 15, 16, 17, 20, 21, 22, 23]

/-- A schedule ROM word `{fsel[1:0], k[3:0], s[4:0]}` whose rotation amount is one of the sixteen used (R108). -/
def scheduleWordWellFormed (sw : BitVec 11) : Bool := scheduleAmounts.contains (sw.extractLsb' 0 5).toNat

end Sys2Proof
end

