-- ==== Sys2Proof/Machine/State.lean ====
section
/-!
DEFINITION. The state of the hardware (10_state.md R30: "The complete architectural state is the following 846 bits.
Nothing else in the hardware holds a value from one edge to the next."), its value after reset, the samples of the
input ports, and the reasons a step can stop.
-/

namespace Sys2Proof.Machine

/-- What the host drives on the input ports at one rising edge (30_encoding.md R100). -/
structure Pins where
  /-- `rst`: synchronous reset, active high. -/
  rst : Bool
  /-- `cmd_valid`: the host offers the command on `cmd`. -/
  cmdValid : Bool
  /-- `cmd`: the command word. -/
  cmd : BitVec 10
  deriving DecidableEq, Repr

/-- Four words in the order A, B, C, D: the source's State, "four Words (A, B, C, D)" (R31), as the function-level rules
pass it around (R260, R350). -/
structure Chain where
  A : Word
  B : Word
  C : Word
  D : Word
  deriving DecidableEq, Repr

/-- The state. The registers carry the spec's own names; upper and lower case letters are distinct registers (R33). -/
structure State where
  /-- Chaining register `A` (R31). -/
  A : Word
  /-- Chaining register `B` (R31). -/
  B : Word
  /-- Chaining register `C` (R31). -/
  C : Word
  /-- Chaining register `D` (R31). -/
  D : Word
  /-- Working register `a` (R32). -/
  a : Word
  /-- Working register `b` (R32). -/
  b : Word
  /-- Working register `c` (R32). -/
  c : Word
  /-- Working register `d` (R32). -/
  d : Word
  /-- The block buffer `X[0]` to `X[15]`, which is also the space BUF of 64 bytes (R35, R72). -/
  X : Buffer
  /-- `LEN`: message bits accepted, modulo 2^64 (R37). -/
  LEN : BitVec 64
  /-- `PH`: phase of the control FSM (R39). -/
  PH : BitVec 3
  /-- `RET`: the phase `ADDBACK` moves to (R41). -/
  RET : BitVec 3
  /-- `STEP`: step counter; with `PH` the program counter (R40, R44). -/
  STEP : BitVec 7
  /-- `ERR`: sticky protocol-error flag (R42). -/
  ERR : Bool
  /-- The model's own field, no register: what the host will drive on the input ports at the coming edges, earliest
  first; when the list has run out the host offers nothing (log entry 1). -/
  inputs : List Pins
  deriving DecidableEq, Repr

/-- Why a step stops. The hardware's one exception, ProtocolError, is no fault: it is a next state (R372). -/
inductive Fault where
  /-- `PH` holds 5, 6 or 7. Raised by step, never by an instruction; no state reachable from reset has it (R39, R47).
  Safe: the spec gives no behaviour there (93_implementation_defined.md U3, "stuck"). Log entry 6. -/
  | unreachablePhase
  /-- `STEP` is above 65 in `COMP`, or not 0 in another phase. Raised by step, never by an instruction (R40, R47).
  Safe: U3, "stuck". Log entry 6. -/
  | unreachableStep
  /-- `RET` holds neither `ABSORB`, `PADL` nor `DONE` while `PH` is `COMP`. Raised by step, never by an instruction
  (R41, R47). Safe: U3, "stuck". Log entry 6. -/
  | unreachableReturn
  deriving DecidableEq, Repr

/-- Why an instruction has no meaning. -/
inductive Refusal where
  /-- The instruction of that mnemonic has no meaning in the model. Raised by nothing: every row has its meaning.
  Safe. -/
  | notModelled (mnemonic : String)
  deriving DecidableEq, Repr

/-- What one rising edge does (60_exceptions.md R376, R340): reset, an accepted command or a due micro-operation, nothing
(port ready and no offer), or no row of the transition table. -/
inductive Event where
  | reset
  | run (f : Fetched)
  | idle
  | stuck (r : Fault)
  deriving DecidableEq, Repr

/-- The machine right after a reset edge (R60, R401). `a`, `b`, `c`, `d` and `X` are unspecified there: they are 0 in
this state by DESIGN CHOICE, unsafe, log entry 2 (a reset edge in a run keeps them, R400). The host has not
offered anything yet (log entry 1). -/
def State.reset : State where
  A := ivA
  B := ivB
  C := ivC
  D := ivD
  a := 0#32
  b := 0#32
  c := 0#32
  d := 0#32
  X := Vector.replicate 16 0#32
  LEN := 0#64
  PH := Config.phAbsorb
  RET := Config.phAbsorb
  STEP := 0#7
  ERR := false
  inputs := []

end Sys2Proof.Machine
end

