-- ==== Sys2Proof/Machine/Operands.lean ====
section
/-!
DEFINITION. Where operands come from and where results go: byte lanes of the block buffer (20_memory.md R72, R85), the
fill index (10_state.md R38), the bytes of the length field (41_padding_engine.md R163), the fields of a schedule word and
the destination register of a step (30_encoding.md R108, R109).
-/

namespace Sys2Proof.Machine

/-- `UNLE32([b0, b1, b2, b3])`: the word of four bytes, the first the least significant (R15, R180). -/
def unle32 (b0 b1 b2 b3 : Byte) : Word := b3 ++ b2 ++ b1 ++ b0

/-- Byte `l` of a word, bits `[8l+7 : 8l]` (R15, R184). -/
def wordByte (x : Word) (l : Nat) : Byte := x.extractLsb' (8 * l) 8

/-- The byte address of lane `l` of word `k`, `4k + l` (R72). -/
def byteAddr (k : Fin 16) (l : Fin 4) : Fin 64 := ⟨4 * k.val + l.val, by omega⟩

/-- `MemRead(BUF, 4k, 4) = X[k]` (R85); `k` comes from a 4-bit field. -/
def readWord (x : Buffer) (k : BitVec 4) : Word := x.get ⟨k.toNat, k.isLt⟩

/-- Byte `j` of BUF: bits `[8*(j mod 4)+7 : 8*(j mod 4)]` of `X[j div 4]` (R72). -/
def readByte (x : Buffer) (j : Fin 64) : Byte := wordByte (x.get ⟨j.val / 4, by omega⟩) (j.val % 4)

/-- All byte-lane writes of one edge (20_memory.md R76; decision D10, byte-lane write enables): lane `j` takes the byte
`lanes j` names and keeps its content where that is none. -/
def writeLanes (x : Buffer) (lanes : Fin 64 → Option Byte) : Buffer :=
  Vector.ofFn fun k =>
    let byte (l : Fin 4) : Byte := (lanes (byteAddr k l)).getD (readByte x (byteAddr k l))
    unle32 (byte 0) (byte 1) (byte 2) (byte 3)

/-- `MemWrite(BUF, j, 1, v)`: one byte lane, every other byte kept (R85). -/
def memWriteByte (x : Buffer) (j : Fin 64) (v : Byte) : Buffer :=
  writeLanes x fun i => if i = j then some v else none

/-- The fill index `n = LEN[8:3]` (R38). -/
def fillIndex (len : BitVec 64) : BitVec 6 := len.extractLsb' 3 6

/-- The fill index as a byte address of BUF. -/
def fillAddr (len : BitVec 64) : Fin 64 := ⟨(fillIndex len).toNat, (fillIndex len).isLt⟩

/-- Byte `q` of the length field, `LEN[8q+7:8q]` (R163). -/
def lenByte (len : BitVec 64) (q : Nat) : Byte := len.extractLsb' (8 * q) 8

/-- Field `fsel` of a schedule word, `sw[10:9]` (R108). -/
def swFsel (sw : BitVec 11) : BitVec 2 := sw.extractLsb' 9 2

/-- Field `k` of a schedule word, `sw[8:5]` (R108). -/
def swK (sw : BitVec 11) : BitVec 4 := sw.extractLsb' 5 4

/-- Field `s` of a schedule word, `sw[4:0]` (R108). -/
def swS (sw : BitVec 11) : BitVec 5 := sw.extractLsb' 0 5

/-- The four working registers as destinations of a step, in the rotating order of R245. -/
inductive Dst where
  | a
  | d
  | c
  | b
  deriving DecidableEq, Repr

/-- The destination of ROM entry `e`: `dsel = (STEP - 1) mod 4`, 0 `a`, 1 `d`, 2 `c`, 3 `b` (R109, R245). -/
def dstOf (e : Fin 64) : Dst :=
  match e.val % 4 with
  | 0 => .a
  | 1 => .d
  | 2 => .c
  | _ => .b

end Sys2Proof.Machine
end

