-- ==== Sys2Proof/Machine/Flags.lean ====
section
/-!
DEFINITION. The conditions the control FSM tests. There are no condition codes and no arithmetic flags
(10_state.md R45); the only flag is ERR, which nothing reads (R42) and which Ops.raiseProtocolError sets.
-/

namespace Sys2Proof.Machine

/-- `cmd_ready`: 1 exactly when `PH = ABSORB` or `PH = DONE` (30_encoding.md R100, decision D24). -/
def cmdReady (s : State) : Bool := s.PH == Config.phAbsorb || s.PH == Config.phDone

/-- The test of `DATA`: n = 63, the byte fills the buffer (R341). -/
def fillsBuffer (len : BitVec 64) : Bool := fillIndex len == 63#6

/-- The test of `PADF`: n <= 55, the length field fits this block (R341). -/
def lengthFits (len : BitVec 64) : Bool := decide ((fillIndex len).toNat ≤ 55)

/-- `RET` is one of the three phases that are ever written to it: `ABSORB`, `PADL`, `DONE` (R41). -/
def returnLegal (ret : BitVec 3) : Bool := ret == Config.phAbsorb || ret == Config.phPadl || ret == Config.phDone

/-- The control values for which the transition table R340 has no row, each by the name of its cause
(93_implementation_defined.md U3), and none for those it has. -/
def controlFault (s : State) : Option Fault :=
  if 5 ≤ s.PH.toNat then some .unreachablePhase
  else if stepInPhase s.PH s.STEP = false then some .unreachableStep
  else if s.PH = Config.phComp ∧ returnLegal s.RET = false then some .unreachableReturn
  else none

end Sys2Proof.Machine
end

