-- ==== Sys2Proof/Machine/Ops.lean ====
section
/-!
DEFINITION. The operations the instructions share. Each reads its state argument only, so every write of one
instruction uses the values from before the edge (00_scope.md R16).
-/

namespace Sys2Proof.Machine

/-- `raise ProtocolError(cmd)`: "The effect … is exactly: `ERR <- 1`; the command is consumed; no other register changes"
(60_exceptions.md R372). There is no trap entry and no trap return (R377, R378), so nothing stands beside it; only
resetEdge clears ERR (R373). -/
def raiseProtocolError (s : State) : State := { s with ERR := true }

/-- A command's effect by the phase it is accepted in (40_host_commands.md R133): its effect in `ABSORB`, its effect in
`DONE`, and none in a phase in which the port is not ready ("the offer has no effect and is not remembered",
95_test_vectors.md section 2.10). DEDUCED, safe, log entry 5: step never runs a command in such a phase. -/
def commandByPhase (inAbsorb inDone : State → State) (s : State) : State :=
  if s.PH = Config.phAbsorb then inAbsorb s
  else if s.PH = Config.phDone then inDone s
  else s

/-- Entering the compression: "Entering `COMP` is a call of the compression sequence with `RET` as the link register"
(R342). -/
def enterCompression (ret : BitVec 3) (s : State) : State :=
  { s with RET := ret, STEP := 0#7, PH := Config.phComp }

/-- A reset edge (70_reset_and_hazards.md R400): the IV, `LEN`, `PH`, `RET`, `STEP`, `ERR`; `a` to `d` and `X` are kept. -/
def resetEdge (s : State) : State :=
  { s with
    A := ivA, B := ivB, C := ivC, D := ivD
    LEN := 0#64, PH := Config.phAbsorb, RET := Config.phAbsorb, STEP := 0#7, ERR := false }

/-- The effect of `INIT` (R135): the IV, `LEN` 0, phase `ABSORB`; `ERR`, `RET`, `STEP`, the buffer and the working registers
keep their values. -/
def startMessage (s : State) : State :=
  { s with A := ivA, B := ivB, C := ivC, D := ivD, LEN := 0#64, PH := Config.phAbsorb }

/-- `DATA v` without the call (R136): the byte goes to lane n, `LEN` grows by 8 modulo 2^64. -/
def storeByte (v : Byte) (s : State) : State :=
  { s with X := memWriteByte s.X (fillAddr s.LEN) v, LEN := s.LEN + 8#64 }

/-- The effect of `DATA v` in `ABSORB` (R136): the byte that fills the buffer also calls the compression, to return to
`ABSORB`. -/
def absorbByte (v : Byte) (s : State) : State :=
  if fillsBuffer s.LEN then enterCompression Config.phAbsorb (storeByte v s) else storeByte v s

/-- The effect of `FINAL` in `ABSORB` (R137). -/
def closeMessage (s : State) : State := { s with PH := Config.phPadf }

/-- The byte lanes `PADF` writes (R166): nothing below n, `0x80` at n, above n zeros, but the length field at 56 to 63
where it fits ("where the zero fill and the length field name the same byte … the length byte is what is written"). -/
def padfLanes (len : BitVec 64) (j : Fin 64) : Option Byte :=
  if j.val < (fillIndex len).toNat then none
  else if j.val = (fillIndex len).toNat then some 0x80#8
  else if lengthFits len ∧ 56 ≤ j.val then some (lenByte len (j.val - 56))
  else some 0#8

/-- The byte lanes `PADL` writes (R168): zeros in 0 to 55, the length field in 56 to 63. -/
def padlLanes (len : BitVec 64) (j : Fin 64) : Option Byte :=
  if 56 ≤ j.val then some (lenByte len (j.val - 56)) else some 0#8

/-- The effect of `PADF` (R166). -/
def formatFirst (s : State) : State :=
  enterCompression (if lengthFits s.LEN then Config.phDone else Config.phPadl)
    { s with X := writeLanes s.X (padfLanes s.LEN) }

/-- The effect of `PADL` (R168). -/
def formatLast (s : State) : State :=
  enterCompression Config.phDone { s with X := writeLanes s.X (padlLanes s.LEN) }

/-- The effect of `LOAD` (R262). -/
def loadWorking (s : State) : State := { s with a := s.A, b := s.B, c := s.C, d := s.D, STEP := 1#7 }

/-- The result of the step of ROM entry `e` with the registers `ra`, `rb`, `rc`, `rd` in the roles of a, b, c, d: STEPFN with the
buffer word, the constant, the amount and the function the ROMs name (R217, R263). -/
def stepResult (e : Fin 64) (x : Buffer) (ra rb rc rd : Word) : Word :=
  stepFn ra rb rc rd (readWord x (swK (sromAt e))) (tromAt e) (swS (sromAt e)) (swFsel (sromAt e))

/-- The effect of `STEP (e + 1)` (R263): the destination register, in the role of a, gets the result, and `STEP` goes to
the next step; nothing else changes. -/
def sequencerStep (e : Fin 64) (s : State) : State :=
  match dstOf e with
  | .a => { s with a := stepResult e s.X s.a s.b s.c s.d, STEP := BitVec.ofNat 7 (e.val + 2) }
  | .d => { s with d := stepResult e s.X s.d s.a s.b s.c, STEP := BitVec.ofNat 7 (e.val + 2) }
  | .c => { s with c := stepResult e s.X s.c s.d s.a s.b, STEP := BitVec.ofNat 7 (e.val + 2) }
  | .b => { s with b := stepResult e s.X s.b s.c s.d s.a, STEP := BitVec.ofNat 7 (e.val + 2) }

/-- The effect of `ADDBACK` (R330): feed-forward, and the return to the phase in `RET`. -/
def addBackReturn (s : State) : State :=
  { s with
    A := add32 s.A s.a, B := add32 s.B s.b, C := add32 s.C s.c, D := add32 s.D s.d
    STEP := 0#7, PH := s.RET }

end Sys2Proof.Machine
end

