-- ==== Sys2Proof/Machine/Commands.lean ====
section
/-!
DEFINITION. The meanings of the four host commands (40_host_commands.md R135 to R139).
-/

namespace Sys2Proof.Machine

/-- `INIT` (R135): from either ready phase, a new message. -/
def execInit (s : State) : Host.Outcome State Fault Refusal :=
  .next (commandByPhase startMessage startMessage s)

/-- `DATA v` (R136, R139): in `ABSORB` the byte is appended; in `DONE` ProtocolError. -/
def execData (v : Byte) (s : State) : Host.Outcome State Fault Refusal :=
  .next (commandByPhase (absorbByte v) raiseProtocolError s)

/-- `FINAL` (R137, R139): in `ABSORB` the padding starts; in `DONE` ProtocolError. -/
def execFinal (s : State) : Host.Outcome State Fault Refusal :=
  .next (commandByPhase closeMessage raiseProtocolError s)

/-- `RSVD` (R138): ProtocolError in either ready phase. -/
def execRsvd (s : State) : Host.Outcome State Fault Refusal :=
  .next (commandByPhase raiseProtocolError raiseProtocolError s)

end Sys2Proof.Machine
end

