-- ==== Sys2Proof/Machine/Padding.lean ====
section
/-!
DEFINITION. The meanings of the padding micro-operations (41_padding_engine.md R166, R168).
A micro-operation is run by step only where {PH, STEP} selects it (30_encoding.md R107); its meaning is its effect (log entry 7).
-/

namespace Sys2Proof.Machine

/-- `PADF` (R166). -/
def execPadf (s : State) : Host.Outcome State Fault Refusal := .next (formatFirst s)

/-- `PADL` (R168). -/
def execPadl (s : State) : Host.Outcome State Fault Refusal := .next (formatLast s)

end Sys2Proof.Machine
end

