-- ==== Sys2Proof/Machine/Sequencer.lean ====
section
/-!
DEFINITION. The meanings of the sequencer's micro-operations (45_compression_sequencer.md R262, R265 to R328, R330): one
definition per instruction over the shared operations of Ops. ROM entry `i - 1` belongs to `STEP i`.
-/

namespace Sys2Proof.Machine

/-- `LOAD` (R262). -/
def execLoad (s : State) : Host.Outcome State Fault Refusal := .next (loadWorking s)

/-- `STEP 1` (R265): round 1, F, k = 0, s = 7, destination `a`. -/
def execStep1 (s : State) : Host.Outcome State Fault Refusal := .next (sequencerStep 0 s)

/-- `STEP 2` (R266): round 1, F, k = 1, s = 12, destination `d`. -/
def execStep2 (s : State) : Host.Outcome State Fault Refusal := .next (sequencerStep 1 s)

/-- `STEP 3` (R267): round 1, F, k = 2, s = 17, destination `c`. -/
def execStep3 (s : State) : Host.Outcome State Fault Refusal := .next (sequencerStep 2 s)

/-- `STEP 4` (R268): round 1, F, k = 3, s = 22, destination `b`. -/
def execStep4 (s : State) : Host.Outcome State Fault Refusal := .next (sequencerStep 3 s)

/-- `STEP 5` (R269): round 1, F, k = 4, s = 7, destination `a`. -/
def execStep5 (s : State) : Host.Outcome State Fault Refusal := .next (sequencerStep 4 s)

/-- `STEP 6` (R270): round 1, F, k = 5, s = 12, destination `d`. -/
def execStep6 (s : State) : Host.Outcome State Fault Refusal := .next (sequencerStep 5 s)

/-- `STEP 7` (R271): round 1, F, k = 6, s = 17, destination `c`. -/
def execStep7 (s : State) : Host.Outcome State Fault Refusal := .next (sequencerStep 6 s)

/-- `STEP 8` (R272): round 1, F, k = 7, s = 22, destination `b`. -/
def execStep8 (s : State) : Host.Outcome State Fault Refusal := .next (sequencerStep 7 s)

/-- `STEP 9` (R273): round 1, F, k = 8, s = 7, destination `a`. -/
def execStep9 (s : State) : Host.Outcome State Fault Refusal := .next (sequencerStep 8 s)

/-- `STEP 10` (R274): round 1, F, k = 9, s = 12, destination `d`. -/
def execStep10 (s : State) : Host.Outcome State Fault Refusal := .next (sequencerStep 9 s)

/-- `STEP 11` (R275): round 1, F, k = 10, s = 17, destination `c`. -/
def execStep11 (s : State) : Host.Outcome State Fault Refusal := .next (sequencerStep 10 s)

/-- `STEP 12` (R276): round 1, F, k = 11, s = 22, destination `b`. -/
def execStep12 (s : State) : Host.Outcome State Fault Refusal := .next (sequencerStep 11 s)

/-- `STEP 13` (R277): round 1, F, k = 12, s = 7, destination `a`. -/
def execStep13 (s : State) : Host.Outcome State Fault Refusal := .next (sequencerStep 12 s)

/-- `STEP 14` (R278): round 1, F, k = 13, s = 12, destination `d`. -/
def execStep14 (s : State) : Host.Outcome State Fault Refusal := .next (sequencerStep 13 s)

/-- `STEP 15` (R279): round 1, F, k = 14, s = 17, destination `c`. -/
def execStep15 (s : State) : Host.Outcome State Fault Refusal := .next (sequencerStep 14 s)

/-- `STEP 16` (R280): round 1, F, k = 15, s = 22, destination `b`. -/
def execStep16 (s : State) : Host.Outcome State Fault Refusal := .next (sequencerStep 15 s)

/-- `STEP 17` (R281): round 2, G, k = 1, s = 5, destination `a`. -/
def execStep17 (s : State) : Host.Outcome State Fault Refusal := .next (sequencerStep 16 s)

/-- `STEP 18` (R282): round 2, G, k = 6, s = 9, destination `d`. -/
def execStep18 (s : State) : Host.Outcome State Fault Refusal := .next (sequencerStep 17 s)

/-- `STEP 19` (R283): round 2, G, k = 11, s = 14, destination `c`. -/
def execStep19 (s : State) : Host.Outcome State Fault Refusal := .next (sequencerStep 18 s)

/-- `STEP 20` (R284): round 2, G, k = 0, s = 20, destination `b`. -/
def execStep20 (s : State) : Host.Outcome State Fault Refusal := .next (sequencerStep 19 s)

/-- `STEP 21` (R285): round 2, G, k = 5, s = 5, destination `a`. -/
def execStep21 (s : State) : Host.Outcome State Fault Refusal := .next (sequencerStep 20 s)

/-- `STEP 22` (R286): round 2, G, k = 10, s = 9, destination `d`. -/
def execStep22 (s : State) : Host.Outcome State Fault Refusal := .next (sequencerStep 21 s)

/-- `STEP 23` (R287): round 2, G, k = 15, s = 14, destination `c`. -/
def execStep23 (s : State) : Host.Outcome State Fault Refusal := .next (sequencerStep 22 s)

/-- `STEP 24` (R288): round 2, G, k = 4, s = 20, destination `b`. -/
def execStep24 (s : State) : Host.Outcome State Fault Refusal := .next (sequencerStep 23 s)

/-- `STEP 25` (R289): round 2, G, k = 9, s = 5, destination `a`. -/
def execStep25 (s : State) : Host.Outcome State Fault Refusal := .next (sequencerStep 24 s)

/-- `STEP 26` (R290): round 2, G, k = 14, s = 9, destination `d`. -/
def execStep26 (s : State) : Host.Outcome State Fault Refusal := .next (sequencerStep 25 s)

/-- `STEP 27` (R291): round 2, G, k = 3, s = 14, destination `c`. -/
def execStep27 (s : State) : Host.Outcome State Fault Refusal := .next (sequencerStep 26 s)

/-- `STEP 28` (R292): round 2, G, k = 8, s = 20, destination `b`. -/
def execStep28 (s : State) : Host.Outcome State Fault Refusal := .next (sequencerStep 27 s)

/-- `STEP 29` (R293): round 2, G, k = 13, s = 5, destination `a`. -/
def execStep29 (s : State) : Host.Outcome State Fault Refusal := .next (sequencerStep 28 s)

/-- `STEP 30` (R294): round 2, G, k = 2, s = 9, destination `d`. -/
def execStep30 (s : State) : Host.Outcome State Fault Refusal := .next (sequencerStep 29 s)

/-- `STEP 31` (R295): round 2, G, k = 7, s = 14, destination `c`. -/
def execStep31 (s : State) : Host.Outcome State Fault Refusal := .next (sequencerStep 30 s)

/-- `STEP 32` (R296): round 2, G, k = 12, s = 20, destination `b`. -/
def execStep32 (s : State) : Host.Outcome State Fault Refusal := .next (sequencerStep 31 s)

/-- `STEP 33` (R297): round 3, H, k = 5, s = 4, destination `a`. -/
def execStep33 (s : State) : Host.Outcome State Fault Refusal := .next (sequencerStep 32 s)

/-- `STEP 34` (R298): round 3, H, k = 8, s = 11, destination `d`. -/
def execStep34 (s : State) : Host.Outcome State Fault Refusal := .next (sequencerStep 33 s)

/-- `STEP 35` (R299): round 3, H, k = 11, s = 16, destination `c`. -/
def execStep35 (s : State) : Host.Outcome State Fault Refusal := .next (sequencerStep 34 s)

/-- `STEP 36` (R300): round 3, H, k = 14, s = 23, destination `b`. -/
def execStep36 (s : State) : Host.Outcome State Fault Refusal := .next (sequencerStep 35 s)

/-- `STEP 37` (R301): round 3, H, k = 1, s = 4, destination `a`. -/
def execStep37 (s : State) : Host.Outcome State Fault Refusal := .next (sequencerStep 36 s)

/-- `STEP 38` (R302): round 3, H, k = 4, s = 11, destination `d`. -/
def execStep38 (s : State) : Host.Outcome State Fault Refusal := .next (sequencerStep 37 s)

/-- `STEP 39` (R303): round 3, H, k = 7, s = 16, destination `c`. -/
def execStep39 (s : State) : Host.Outcome State Fault Refusal := .next (sequencerStep 38 s)

/-- `STEP 40` (R304): round 3, H, k = 10, s = 23, destination `b`. -/
def execStep40 (s : State) : Host.Outcome State Fault Refusal := .next (sequencerStep 39 s)

/-- `STEP 41` (R305): round 3, H, k = 13, s = 4, destination `a`. -/
def execStep41 (s : State) : Host.Outcome State Fault Refusal := .next (sequencerStep 40 s)

/-- `STEP 42` (R306): round 3, H, k = 0, s = 11, destination `d`. -/
def execStep42 (s : State) : Host.Outcome State Fault Refusal := .next (sequencerStep 41 s)

/-- `STEP 43` (R307): round 3, H, k = 3, s = 16, destination `c`. -/
def execStep43 (s : State) : Host.Outcome State Fault Refusal := .next (sequencerStep 42 s)

/-- `STEP 44` (R308): round 3, H, k = 6, s = 23, destination `b`. -/
def execStep44 (s : State) : Host.Outcome State Fault Refusal := .next (sequencerStep 43 s)

/-- `STEP 45` (R309): round 3, H, k = 9, s = 4, destination `a`. -/
def execStep45 (s : State) : Host.Outcome State Fault Refusal := .next (sequencerStep 44 s)

/-- `STEP 46` (R310): round 3, H, k = 12, s = 11, destination `d`. -/
def execStep46 (s : State) : Host.Outcome State Fault Refusal := .next (sequencerStep 45 s)

/-- `STEP 47` (R311): round 3, H, k = 15, s = 16, destination `c`. -/
def execStep47 (s : State) : Host.Outcome State Fault Refusal := .next (sequencerStep 46 s)

/-- `STEP 48` (R312): round 3, H, k = 2, s = 23, destination `b`. -/
def execStep48 (s : State) : Host.Outcome State Fault Refusal := .next (sequencerStep 47 s)

/-- `STEP 49` (R313): round 4, I, k = 0, s = 6, destination `a`. -/
def execStep49 (s : State) : Host.Outcome State Fault Refusal := .next (sequencerStep 48 s)

/-- `STEP 50` (R314): round 4, I, k = 7, s = 10, destination `d`. -/
def execStep50 (s : State) : Host.Outcome State Fault Refusal := .next (sequencerStep 49 s)

/-- `STEP 51` (R315): round 4, I, k = 14, s = 15, destination `c`. -/
def execStep51 (s : State) : Host.Outcome State Fault Refusal := .next (sequencerStep 50 s)

/-- `STEP 52` (R316): round 4, I, k = 5, s = 21, destination `b`. -/
def execStep52 (s : State) : Host.Outcome State Fault Refusal := .next (sequencerStep 51 s)

/-- `STEP 53` (R317): round 4, I, k = 12, s = 6, destination `a`. -/
def execStep53 (s : State) : Host.Outcome State Fault Refusal := .next (sequencerStep 52 s)

/-- `STEP 54` (R318): round 4, I, k = 3, s = 10, destination `d`. -/
def execStep54 (s : State) : Host.Outcome State Fault Refusal := .next (sequencerStep 53 s)

/-- `STEP 55` (R319): round 4, I, k = 10, s = 15, destination `c`. -/
def execStep55 (s : State) : Host.Outcome State Fault Refusal := .next (sequencerStep 54 s)

/-- `STEP 56` (R320): round 4, I, k = 1, s = 21, destination `b`. -/
def execStep56 (s : State) : Host.Outcome State Fault Refusal := .next (sequencerStep 55 s)

/-- `STEP 57` (R321): round 4, I, k = 8, s = 6, destination `a`. -/
def execStep57 (s : State) : Host.Outcome State Fault Refusal := .next (sequencerStep 56 s)

/-- `STEP 58` (R322): round 4, I, k = 15, s = 10, destination `d`. -/
def execStep58 (s : State) : Host.Outcome State Fault Refusal := .next (sequencerStep 57 s)

/-- `STEP 59` (R323): round 4, I, k = 6, s = 15, destination `c`. -/
def execStep59 (s : State) : Host.Outcome State Fault Refusal := .next (sequencerStep 58 s)

/-- `STEP 60` (R324): round 4, I, k = 13, s = 21, destination `b`. -/
def execStep60 (s : State) : Host.Outcome State Fault Refusal := .next (sequencerStep 59 s)

/-- `STEP 61` (R325): round 4, I, k = 4, s = 6, destination `a`. -/
def execStep61 (s : State) : Host.Outcome State Fault Refusal := .next (sequencerStep 60 s)

/-- `STEP 62` (R326): round 4, I, k = 11, s = 10, destination `d`. -/
def execStep62 (s : State) : Host.Outcome State Fault Refusal := .next (sequencerStep 61 s)

/-- `STEP 63` (R327): round 4, I, k = 2, s = 15, destination `c`. -/
def execStep63 (s : State) : Host.Outcome State Fault Refusal := .next (sequencerStep 62 s)

/-- `STEP 64` (R328): round 4, I, k = 9, s = 21, destination `b`. -/
def execStep64 (s : State) : Host.Outcome State Fault Refusal := .next (sequencerStep 63 s)

/-- `ADDBACK` (R330). -/
def execAddback (s : State) : Host.Outcome State Fault Refusal := .next (addBackReturn s)

end Sys2Proof.Machine
end

