-- ==== Sys2Proof/Decode.lean ====
section
/-!
DEFINITION. The decoder of command words (30_encoding.md R102, R103), the selector of micro-operations (R107), the
encoder back to both forms, and the reading of a word numbered as spec/opcode_table.json numbers it.
-/

namespace Sys2Proof

/-- Field `op` of a command word, `cmd[9:8]` (R102). -/
def commandOp (w : BitVec 10) : BitVec 2 := w.extractLsb' 8 2

/-- Field `byte` of a command word, `cmd[7:0]` (R102, R104). -/
def commandByte (w : BitVec 10) : Byte := w.extractLsb' 0 8

/-- The command a 10-bit word is: "Every 10-bit word matches exactly one row" (R103). The payload of `INIT`, `FINAL`
and `RSVD` is not examined (R105). -/
def decodeCommand (w : BitVec 10) : Instr :=
  if commandOp w = 0#2 then .init
  else if commandOp w = 1#2 then .data (commandByte w)
  else if commandOp w = 2#2 then .final
  else .rsvd

/-- Field `PH` of a selection, bits 9:7 (R107). -/
def selectorPhase (u : BitVec 10) : BitVec 3 := u.extractLsb' 7 3

/-- Field `STEP` of a selection, bits 6:0 (R107). -/
def selectorStep (u : BitVec 10) : BitVec 7 := u.extractLsb' 0 7

/-- The selection word of a phase and a step counter, `{PH[2:0], STEP[6:0]}` (R107). -/
def selectorWord (ph : BitVec 3) (st : BitVec 7) : BitVec 10 := ph ++ st

/-- The micro-operations of round 1, `STEP 1` to `STEP 16`. -/
def stepsOfRound1 : List Instr :=
  [.step1, .step2, .step3, .step4, .step5, .step6, .step7, .step8, .step9, .step10, .step11, .step12, .step13, .step14, .step15, .step16]
/-- The micro-operations of round 2, `STEP 17` to `STEP 32`. -/
def stepsOfRound2 : List Instr :=
  [.step17, .step18, .step19, .step20, .step21, .step22, .step23, .step24, .step25, .step26, .step27, .step28, .step29, .step30, .step31, .step32]
/-- The micro-operations of round 3, `STEP 33` to `STEP 48`. -/
def stepsOfRound3 : List Instr :=
  [.step33, .step34, .step35, .step36, .step37, .step38, .step39, .step40, .step41, .step42, .step43, .step44, .step45, .step46, .step47, .step48]
/-- The micro-operations of round 4, `STEP 49` to `STEP 64`. -/
def stepsOfRound4 : List Instr :=
  [.step49, .step50, .step51, .step52, .step53, .step54, .step55, .step56, .step57, .step58, .step59, .step60, .step61, .step62, .step63, .step64]

/-- `STEP 1` to `STEP 64` in the order of the step index. -/
def stepInstrs : List Instr := stepsOfRound1 ++ stepsOfRound2 ++ stepsOfRound3 ++ stepsOfRound4

theorem stepInstrs_length : stepInstrs.length = 64 := rfl

/-- The micro-operation `STEP (e + 1)`, that of ROM entry `e` (R70: "entry i - 1 for step i"). -/
def stepInstr (e : Fin 64) : Instr := stepInstrs.get (e.cast stepInstrs_length.symm)

/-- The micro-operation that `COMP` with `STEP = st` selects: 0 `LOAD`, 1 to 64 `STEP i`, 65 `ADDBACK` (R40, R107). -/
def compOperation (st : Nat) : Except DecodeError Instr :=
  if st = 0 then .ok .load
  else if st = 65 then .ok .addback
  else if h : st - 1 < 64 then .ok (stepInstr ⟨st - 1, h⟩)
  else .error .stepBeyondAddback

/-- The micro-operation a selection names (R107), or why it names none. -/
def decodeSelector (u : BitVec 10) : Except DecodeError Instr :=
  if selectorPhase u = Config.phComp then compOperation (selectorStep u).toNat
  else if 5 ≤ (selectorPhase u).toNat then .error .noSuchPhase
  else if selectorStep u ≠ 0#7 then .error .stepOutsideComp
  else if selectorPhase u = Config.phPadf then .ok .padf
  else if selectorPhase u = Config.phPadl then .ok .padl
  else .error .portReady

/-- The instruction of a fetched form: a command always decodes, a selection may name none. -/
def decode : Fetched → Except DecodeError Instr
  | .command w => .ok (decodeCommand w)
  | .selector u => decodeSelector u

/-- The form in which the hardware receives an instruction, from the match column of spec/opcode_table.json: a command
word with payload 0 where the payload is ignored (R105), or the selection of R107. -/
def encode : Instr → Fetched
  | .init => .command 0x000#10
  | .data v => .command (1#2 ++ v)
  | .final => .command 0x200#10
  | .rsvd => .command 0x300#10
  | .padf => .selector 0x100#10
  | .padl => .selector 0x180#10
  | .load => .selector 0x080#10
  | .step1 => .selector 0x081#10
  | .step2 => .selector 0x082#10
  | .step3 => .selector 0x083#10
  | .step4 => .selector 0x084#10
  | .step5 => .selector 0x085#10
  | .step6 => .selector 0x086#10
  | .step7 => .selector 0x087#10
  | .step8 => .selector 0x088#10
  | .step9 => .selector 0x089#10
  | .step10 => .selector 0x08a#10
  | .step11 => .selector 0x08b#10
  | .step12 => .selector 0x08c#10
  | .step13 => .selector 0x08d#10
  | .step14 => .selector 0x08e#10
  | .step15 => .selector 0x08f#10
  | .step16 => .selector 0x090#10
  | .step17 => .selector 0x091#10
  | .step18 => .selector 0x092#10
  | .step19 => .selector 0x093#10
  | .step20 => .selector 0x094#10
  | .step21 => .selector 0x095#10
  | .step22 => .selector 0x096#10
  | .step23 => .selector 0x097#10
  | .step24 => .selector 0x098#10
  | .step25 => .selector 0x099#10
  | .step26 => .selector 0x09a#10
  | .step27 => .selector 0x09b#10
  | .step28 => .selector 0x09c#10
  | .step29 => .selector 0x09d#10
  | .step30 => .selector 0x09e#10
  | .step31 => .selector 0x09f#10
  | .step32 => .selector 0x0a0#10
  | .step33 => .selector 0x0a1#10
  | .step34 => .selector 0x0a2#10
  | .step35 => .selector 0x0a3#10
  | .step36 => .selector 0x0a4#10
  | .step37 => .selector 0x0a5#10
  | .step38 => .selector 0x0a6#10
  | .step39 => .selector 0x0a7#10
  | .step40 => .selector 0x0a8#10
  | .step41 => .selector 0x0a9#10
  | .step42 => .selector 0x0aa#10
  | .step43 => .selector 0x0ab#10
  | .step44 => .selector 0x0ac#10
  | .step45 => .selector 0x0ad#10
  | .step46 => .selector 0x0ae#10
  | .step47 => .selector 0x0af#10
  | .step48 => .selector 0x0b0#10
  | .step49 => .selector 0x0b1#10
  | .step50 => .selector 0x0b2#10
  | .step51 => .selector 0x0b3#10
  | .step52 => .selector 0x0b4#10
  | .step53 => .selector 0x0b5#10
  | .step54 => .selector 0x0b6#10
  | .step55 => .selector 0x0b7#10
  | .step56 => .selector 0x0b8#10
  | .step57 => .selector 0x0b9#10
  | .step58 => .selector 0x0ba#10
  | .step59 => .selector 0x0bb#10
  | .step60 => .selector 0x0bc#10
  | .step61 => .selector 0x0bd#10
  | .step62 => .selector 0x0be#10
  | .step63 => .selector 0x0bf#10
  | .step64 => .selector 0x0c0#10
  | .addback => .selector 0x0c1#10

/-- The fetched form of a word whose bits are numbered as spec/opcode_table.json numbers them, 10 bits for every row, the
bits from `nbits` up zero. The table gives the two formats the same 10 bits and nothing tells them apart, so a word that
is exactly a USEL row (mask 0x3ff) is read as that selection and every other word as a command.
DESIGN CHOICE, safe, log entry 4: it serves the table's words only; step never guesses the format. -/
def fetchedOfTableWord (nbits w : Nat) : Option Fetched :=
  let v := w % 2 ^ nbits
  if 1024 ≤ v then none
  else
    match decodeSelector (BitVec.ofNat 10 v) with
    | .ok _ => some (.selector (BitVec.ofNat 10 v))
    | .error _ => some (.command (BitVec.ofNat 10 v))

/-- The instruction the decoder reads from a table word. -/
def decodeTableWord (nbits w : Nat) : Option Instr :=
  match fetchedOfTableWord nbits w with
  | none => none
  | some f =>
    match decode f with
    | .ok i => some i
    | .error _ => none

end Sys2Proof
end

