-- ==== Sys2Proof/Machine/Fetch.lean ====
section
/-!
DEFINITION. What an edge does: the input samples, the event they and the registers select, and the placing of a table
word where the next edge runs it.
-/

namespace Sys2Proof.Machine

/-- The input ports of an edge at which the host does nothing. -/
def noOffer : Pins := ⟨false, false, 0#10⟩

/-- The input ports of an edge at which the host offers the command word `w`. -/
def offer (w : BitVec 10) : Pins := ⟨false, true, w⟩

/-- The input ports of an edge at which the host asserts `rst`. -/
def assertReset : Pins := ⟨true, false, 0#10⟩

/-- The sample of the input ports at the coming edge; nothing is offered once the list has run out (log entry 1). -/
def nextPins (s : State) : Pins := s.inputs.headD noOffer

/-- The state with the sample of this edge used up; no register changes. -/
def consumePins (s : State) : State := { s with inputs := s.inputs.tail }

/-- The event of the coming edge, in the priority of 60_exceptions.md R376: reset first; then, if the port is ready, the
command offered (R101) or nothing; then, if it is not, the micro-operation that {PH, STEP} selects (R107). Control values
without a row stop the machine, unless `rst` is 1 (93_implementation_defined.md U3, log entry 6). -/
def dueEvent (s : State) : Event :=
  if (nextPins s).rst then .reset
  else
    match controlFault s with
    | some r => .stuck r
    | none =>
      if cmdReady s then
        if (nextPins s).cmdValid then .run (.command (nextPins s).cmd) else .idle
      else .run (.selector (selectorWord s.PH s.STEP))

/-- The control registers set so that the coming edge runs the fetched form: a command needs a ready port (`DONE` is kept,
any other phase becomes `ABSORB`) and the word on it; a selection is itself the value of `PH` and `STEP`, and needs an edge
without `rst` and, in `COMP`, a legal link register (an illegal one becomes `ABSORB`). DESIGN CHOICE, safe, log entry 3. -/
def placeFetched (f : Fetched) (s : State) : State :=
  match f with
  | .command w =>
    { s with
      PH := if s.PH = Config.phDone then Config.phDone else Config.phAbsorb
      STEP := 0#7
      inputs := offer w :: s.inputs }
  | .selector u =>
    { s with
      PH := selectorPhase u
      STEP := selectorStep u
      RET := if selectorPhase u = Config.phComp ∧ returnLegal s.RET = false then Config.phAbsorb else s.RET
      inputs := noOffer :: s.inputs }

end Sys2Proof.Machine
end

