-- ==== Sys2Proof/Machine/Step.lean ====
section
/-!
DEFINITION. One step is one rising edge of clk (30_encoding.md R100, R101; 60_exceptions.md R376).
-/

namespace Sys2Proof.Machine

/-- One rising edge: the sample of the input ports is used up and the event it selects happens. -/
def step (s : State) : Host.Outcome State Fault Refusal :=
  match dueEvent s with
  | .reset => .next (resetEdge (consumePins s))
  | .idle => .next (consumePins s)
  | .stuck r => .fault r
  | .run f =>
    match decode f with
    | .ok i => exec i (consumePins s)
    | .error _ => .fault .unreachableStep

/-- The state with a table word placed where the next edge runs it; a word the decoder refuses changes nothing. -/
def State.withFetchWord (s : State) (nbits w : Nat) : State :=
  match fetchedOfTableWord nbits w with
  | some f => placeFetched f s
  | none => s

end Sys2Proof.Machine
end

