-- ==== Sys2Proof/Machine/Ports.lean ====
section
/-!
DEFINITION. The output ports: functions of the registers alone (30_encoding.md R100; 46_finalizer.md R351, R352).
`cmd_ready` is cmdReady of Flags, which the control unit itself uses.
-/

namespace Sys2Proof.Machine

/-- `digest_valid`: 1 exactly when `PH = DONE` (R352). -/
def digestValid (s : State) : Bool := s.PH == Config.phDone

/-- `digest[127:0]`: the registers D, C, B, A, `A` in the low bits, at all times (R351). -/
def digest (s : State) : BitVec 128 := s.D ++ s.C ++ s.B ++ s.A

/-- `err`: the register ERR (R42, R100). -/
def err (s : State) : Bool := s.ERR

end Sys2Proof.Machine
end

