-- ==== Sys2Proof/Machine/Contract.lean ====
section
/-!
DEFINITION. The functions of the source that the hardware computes, on byte sequences and words: pad (R160), to_blocks
(R180), compress (R260, rotating form R261), finalize (R350), md5_digest (R130) and the host-side md5_hexdigest (R355).
Nothing here is used by a step: these are what statements compare the machine with.
-/

namespace Sys2Proof.Machine

/-- The initial State of a digest call (R130, R31). -/
def iv : Chain := ⟨ivA, ivB, ivC, ivD⟩

/-- The chaining registers of the machine as four words. -/
def chainOf (s : State) : Chain := ⟨s.A, s.B, s.C, s.D⟩

/-- The working registers of the machine as four words. -/
def workingOf (s : State) : Chain := ⟨s.a, s.b, s.c, s.d⟩

/-- `LE32(w)`: the four bytes of a word, least significant first (R15). -/
def le32 (x : Word) : List Byte := [wordByte x 0, wordByte x 1, wordByte x 2, wordByte x 3]

/-- `LE64(v)`: the eight bytes of a 64-bit value, least significant first (R15). -/
def le64 (v : BitVec 64) : List Byte := (List.range 8).map (lenByte v)

/-- The value of a little-endian byte sequence: the sum of `y[j] * 2^(8j)` (R15). -/
def leNat : List Byte → Nat
  | [] => 0
  | y :: ys => y.toNat + 256 * leNat ys

/-- `UNLE128(y)`, the port value of sixteen bytes (R15, R351). -/
def unle128 (y : List Byte) : BitVec 128 := BitVec.ofNat 128 (leNat y)

/-- The number z of zero bytes for a message of L bytes: the closed form `z = (55 - L) mod 64` (R160), written
without a negative number. -/
def padZeros (l : Nat) : Nat := (119 - l % 64) % 64

/-- `pad(m)` (R160). -/
def pad (m : List Byte) : List Byte :=
  m ++ [0x80#8] ++ List.replicate (padZeros m.length) 0#8 ++ le64 (BitVec.ofNat 64 (8 * m.length))

/-- `Block_q` of a byte sequence: sixteen words decoded four bytes at a time, little-endian (R180). -/
def blockAt (p : List Byte) (q : Nat) : Buffer :=
  Vector.ofFn fun k =>
    unle32 (p.getD (64 * q + 4 * k.val) 0#8) (p.getD (64 * q + 4 * k.val + 1) 0#8)
      (p.getD (64 * q + 4 * k.val + 2) 0#8) (p.getD (64 * q + 4 * k.val + 3) 0#8)

/-- The whole blocks of a byte sequence, in order (R180). -/
def blocksOf (p : List Byte) : List Buffer := (List.range (p.length / Config.blockBytes)).map (blockAt p)

/-- `to_blocks(p)` (R180), which has no value unless the length is a multiple of 64 (R181; log entry 12). -/
def toBlocks (p : List Byte) : Option (List Buffer) :=
  if p.length % Config.blockBytes = 0 then some (blocksOf p) else none

/-- The 64 bytes of a block, byte 0 first (R72, R182). -/
def blockBytesOf (x : Buffer) : List Byte := (List.finRange 64).map (readByte x)

/-- One turn of the loop of `compress` (R260): the register of the step takes the role of a, the following three, in the
cyclic order a, b, c, d, the roles of b, c, d. -/
def compressStep (x : Buffer) (w : Chain) (e : Fin 64) : Chain :=
  match dstOf e with
  | .a => { w with A := stepResult e x w.A w.B w.C w.D }
  | .d => { w with D := stepResult e x w.D w.A w.B w.C }
  | .c => { w with C := stepResult e x w.C w.D w.A w.B }
  | .b => { w with B := stepResult e x w.B w.C w.D w.A }

/-- The feed-forward: word-wise modular sum (R260). -/
def addChain (u v : Chain) : Chain := ⟨add32 u.A v.A, add32 u.B v.B, add32 u.C v.C, add32 u.D v.D⟩

/-- `compress(X, (A0, B0, C0, D0))` (R260). -/
def compress (x : Buffer) (st : Chain) : Chain := addChain st ((List.finRange 64).foldl (compressStep x) st)

/-- One turn of the rotating form: (p, q, r, t) becomes (t, new, q, r) (R261). -/
def rotatingStep (x : Buffer) (w : Chain) (e : Fin 64) : Chain :=
  ⟨w.D, stepResult e x w.A w.B w.C w.D, w.B, w.C⟩

/-- The rotating form of `compress` (R261). -/
def compressRotating (x : Buffer) (st : Chain) : Chain := addChain st ((List.finRange 64).foldl (rotatingStep x) st)

/-- `finalize((A, B, C, D))`: sixteen bytes (R350). -/
def finalize (st : Chain) : List Byte := le32 st.A ++ le32 st.B ++ le32 st.C ++ le32 st.D

/-- `md5_digest(m)` (R130). -/
def md5Digest (m : List Byte) : List Byte := finalize ((blocksOf (pad m)).foldl (fun st x => compress x st) iv)

/-- The two characters of a byte, high nibble first, digits 0 to 9 and a to f (R355). -/
def hexByte (y : Byte) : List Char := [Nat.digitChar (y.toNat / 16), Nat.digitChar (y.toNat % 16)]

/-- `md5_hexdigest(m)`, a function of the host and not of the hardware (R355). -/
def md5Hexdigest (m : List Byte) : List Char := (md5Digest m).flatMap hexByte

end Sys2Proof.Machine
end

