-- ==== Sys2Proof/Machine/CommandLevel.lean ====
section
/-!
DEFINITION. The command-level machine of 40_host_commands.md R140, "equivalent, for every observation a host can make
through the handshake": it executes one command per step. It is no part of step; statements compare the two.
-/

namespace Sys2Proof.Machine

/-- The state of the command-level machine (R140). -/
structure CmdState where
  /-- `st`: the four chaining words. -/
  st : Chain
  /-- `buf`: the bytes of the current block, fewer than 64. -/
  buf : List Byte
  /-- `len`: the message length in bits. -/
  len : BitVec 64
  /-- `done`: the digest is complete. -/
  done : Bool
  /-- `err`: the error flag. -/
  err : Bool
  deriving DecidableEq, Repr

/-- The state after reset (R140). -/
def cmdReset : CmdState := ⟨iv, [], 0#64, false, false⟩

/-- `pad_tail(buf, len)`: `0x80`, the fewest zeros and the length field, to a multiple of 64 bytes (R140). -/
def padTail (buf : List Byte) (len : BitVec 64) : List Byte :=
  buf ++ [0x80#8] ++ List.replicate (padZeros buf.length) 0#8 ++ le64 len

/-- One command (R140); a micro-operation is no command and changes nothing here. -/
def cmdExec (i : Instr) (t : CmdState) : CmdState :=
  match i with
  | .init => { t with st := iv, buf := [], len := 0#64, done := false }
  | .data v =>
    if t.done then { t with err := true }
    else if (t.buf ++ [v]).length = Config.blockBytes then
      { t with st := compress (blockAt (t.buf ++ [v]) 0) t.st, buf := [], len := t.len + 8#64 }
    else { t with buf := t.buf ++ [v], len := t.len + 8#64 }
  | .final =>
    if t.done then { t with err := true }
    else
      { t with
        st := (blocksOf (padTail t.buf t.len)).foldl (fun st x => compress x st) t.st
        buf := [], done := true }
  | .rsvd => { t with err := true }
  | _ => t

/-- The command-level state that a state of the hardware in a ready phase stands for (R140): in `ABSORB` the buffer holds the
n = `LEN[8:3]` bytes of the current block. -/
def abstractState (s : State) : CmdState where
  st := chainOf s
  buf := if s.PH = Config.phDone then [] else (blockBytesOf s.X).take (fillIndex s.LEN).toNat
  len := s.LEN
  done := digestValid s
  err := s.ERR

end Sys2Proof.Machine
end

