-- ==== Sys2Proof/Machine/Timing.lean ====
section
/-!
DEFINITION. The cycle counts of 70_reset_and_hazards.md R420, "given for completeness; no rule about values depends on
them". A step of the model is one edge (log entry 8).
-/

namespace Sys2Proof.Machine

/-- The edges of one compression: `LOAD`, 64 steps, `ADDBACK` (R420). -/
def blockEdges : Nat := (Config.nSteps + 2) * Config.cycles

/-- The not-ready edges after an accepted `FINAL` with fill index n (R420). -/
def paddingEdges (n : Nat) : Nat :=
  if n ≤ 55 then Config.cycles + blockEdges else 2 * (Config.cycles + blockEdges)

/-- The edges of a whole message of L bytes, from the accepting edge of its first command, the host never idle (R420). -/
def messageEdges (l : Nat) : Nat := l + 1 + blockEdges * (l / 64) + paddingEdges (l % 64)

end Sys2Proof.Machine
end

