-- ==== Sys2Proof/Safety.lean ====
section
/-!
DEFINITION. The terms claims use: runs of several edges, runs without reset, the commands a run accepts, the invariants of
10_state.md R47, and the relation of two states that no host can tell apart.
-/

namespace Sys2Proof.Machine

/-- `k` edges, stopping at the first fault or refusal. -/
def run : Nat → State → Host.Outcome State Fault Refusal
  | 0, s => .next s
  | k + 1, s =>
    match step s with
    | .next t => run k t
    | .fault r => .fault r
    | .refused r => .refused r

/-- `rst` is 0 at each of the coming `k` edges (after the end of the list it is 0). -/
def NoReset (k : Nat) (s : State) : Prop := ∀ p ∈ s.inputs.take k, p.rst = false

/-- The command accepted at the coming edge, if one is: `rst = 0`, `cmd_valid = 1` and `cmd_ready = 1` (30_encoding.md R101). -/
def acceptedCommand (s : State) : Option Instr :=
  if (nextPins s).rst = false ∧ (nextPins s).cmdValid = true ∧ cmdReady s = true then
    some (decodeCommand (nextPins s).cmd)
  else none

/-- The commands accepted at the coming `k` edges, in order. -/
def acceptedTrace : Nat → State → List Instr
  | 0, _ => []
  | k + 1, s =>
    (acceptedCommand s).toList ++
      match step s with
      | .next t => acceptedTrace k t
      | .fault _ => []
      | .refused _ => []

/-- A row of the transition table R340: the edge is the operation `o`, which gives a next state with these values of `PH`,
`STEP` and `RET`. -/
def TableRow (s : State) (o : Host.Outcome State Fault Refusal) (ph : BitVec 3) (st : BitVec 7) (ret : BitVec 3) : Prop :=
  step s = o ∧ ∃ t, o = .next t ∧ t.PH = ph ∧ t.STEP = st ∧ t.RET = ret

/-- The control invariant (10_state.md R47 (a), (b)): `PH` is one of 0 to 4, `RET` one of 0, 3, 4, `STEP` is 0 outside
`COMP` and at most 65 in it. -/
def ControlInv (s : State) : Prop :=
  s.PH.toNat ≤ 4 ∧ returnLegal s.RET = true ∧ stepInPhase s.PH s.STEP = true

/-- The length is a whole number of bytes (10_state.md R47 (c)). -/
def LengthInv (s : State) : Prop := s.LEN.extractLsb' 0 3 = 0#3

/-- The invariant of 10_state.md R47 (a) to (c). -/
def StateInv (s : State) : Prop := ControlInv s ∧ LengthInv s

/-- The bytes of the buffer that a later operation of the same message can still read (10_state.md R47 (d), (f)): in
`ABSORB` and `PADF` those below the fill index, in `COMP` all, in `PADL` and `DONE` none. -/
def liveByte (s : State) (j : Fin 64) : Prop :=
  if s.PH = Config.phComp then True
  else if s.PH = Config.phAbsorb ∨ s.PH = Config.phPadf then j.val < (fillIndex s.LEN).toNat
  else False

/-- The working registers hold values of the block in progress: after `LOAD`, until `ADDBACK` (10_state.md R47 (e)). -/
def workingLive (s : State) : Prop := s.PH = Config.phComp ∧ s.STEP ≠ 0#7

/-- Two states that differ at most in what R47 (d), (e), (f) calls never read: dead buffer bytes and dead working
registers. -/
def Agree (s t : State) : Prop :=
  chainOf s = chainOf t ∧ s.LEN = t.LEN ∧ s.PH = t.PH ∧ s.RET = t.RET ∧ s.STEP = t.STEP ∧ s.ERR = t.ERR ∧
    s.inputs = t.inputs ∧
    (∀ j, liveByte s j → readByte s.X j = readByte t.X j) ∧ (workingLive s → workingOf s = workingOf t)

end Sys2Proof.Machine
end

