-- ==== Sys2Proof/Certificates/Slice0/Obligations.lean ====
section
/-!
DEFINITION. The statements for the provers, in the order of the spec's files. Each docstring names the rule it formalises.
-/


open Sys2Proof Sys2Proof.Machine

/-! ### Encoding (30_encoding.md) -/

/-- Decode and encode agree: the form in which the hardware receives an instruction decodes to that instruction, the
message byte of `DATA` at every value. Derived from 30_encoding.md sections 2 and 4. -/
def Obligations.DecodeOfEncodeIsTheInstruction : Prop :=
  ∀ i : Instr, i.wellFormed = true → decode (encode i) = .ok i

/-- The other direction for selections: the only selection that decodes to a micro-operation is its encoding, so no
two rows of R107 overlap. Derived from 30_encoding.md section 4. -/
def Obligations.SelectionsAreUnambiguous : Prop :=
  ∀ (u : BitVec 10) (i : Instr), decode (.selector u) = .ok i → encode i = .selector u

/-- The decoder accepts exactly the well-formed fetched forms: every command word, and the selections that are rows of
R107. Derived from 30_encoding.md sections 2 and 4. -/
def Obligations.DecoderAcceptsExactlyWellFormed : Prop :=
  ∀ f : Fetched, (∃ i, decode f = .ok i) ↔ f.wellFormed = true

/-- R103: a word is the command of the row for which `(w AND mask) = match`, and every word matches exactly one row. -/
def Obligations.CommandWordsMatchOneRow : Prop :=
  ∀ w : BitVec 10,
    (w &&& 0x300#10 = 0x000#10 ↔ decodeCommand w = .init) ∧
    (w &&& 0x300#10 = 0x100#10 ↔ decodeCommand w = .data (w.extractLsb' 0 8)) ∧
    (w &&& 0x300#10 = 0x200#10 ↔ decodeCommand w = .final) ∧
    (w &&& 0x300#10 = 0x300#10 ↔ decodeCommand w = .rsvd) ∧
    (∃! m : BitVec 10, m ∈ [0x000#10, 0x100#10, 0x200#10, 0x300#10] ∧ w &&& 0x300#10 = m)

/-- Two words of the same operation code other than `DATA` are the same command whatever their payloads, and two `DATA`
words are `DATA` of their own payloads. Derived from 30_encoding.md section 3. -/
def Obligations.PayloadMattersOnlyForData : Prop :=
  ∀ (op : BitVec 2) (p q : Byte),
    (op ≠ 1#2 → decodeCommand (op ++ p) = decodeCommand (op ++ q)) ∧ decodeCommand (1#2 ++ p) = .data p

/-- Words written out from the spec's encodings decode to the instructions they stand for (95_test_vectors.md section 3;
30_encoding.md section 4). -/
def Obligations.WrittenWordsDecode : Prop :=
  decode (.command 0x0ab#10) = .ok .init ∧ decode (.command 0x161#10) = .ok (.data 0x61#8) ∧
    decode (.command 0x200#10) = .ok .final ∧ decode (.command 0x35a#10) = .ok .rsvd ∧
    decode (.selector 0b0100000000#10) = .ok .padf ∧ decode (.selector 0b0110000000#10) = .ok .padl ∧
    decode (.selector 0b0010000000#10) = .ok .load ∧ decode (.selector 0b0010010001#10) = .ok .step17 ∧
    decode (.selector 0b0011000000#10) = .ok .step64 ∧ decode (.selector 0b0011000001#10) = .ok .addback

/-- A table word placed by withFetchWord is what the very next step runs, on a state that differs from the given one at
most in `PH`, `STEP` and `RET`: for a micro-operation these are its selection, for a command the port is ready. The
placing is the model's own (log entries 3 and 4). -/
def Obligations.PlacedWordRunsNext : Prop :=
  ∀ (s : State) (nbits w : Nat) (i : Instr), decodeTableWord nbits w = some i →
    ∃ t : State, step (s.withFetchWord nbits w) = exec i t ∧ t = { s with PH := t.PH, STEP := t.STEP, RET := t.RET } ∧
      (∀ u, encode i = .selector u → selectorWord t.PH t.STEP = u) ∧
      (∀ c, encode i = .command c → cmdReady t = true ∧ t.STEP = 0#7) ∧
      (returnLegal s.RET = true → t.RET = s.RET)

/-! ### One edge (30_encoding.md R101, 45_compression_sequencer.md R340, 60_exceptions.md R376, 70_reset_and_hazards.md R400) -/

/-- R101, and with it that a step runs the decoded instruction: a command is accepted and executed exactly when rst = 0,
cmd_valid = 1 and cmd_ready = 1; no offer at a ready edge changes no register; a not-ready edge executes the selected
micro-operation. `consumePins` only drops the used input sample, so nothing of an offer that is not accepted is kept. -/
def Obligations.StepRunsTheDecodedInstruction : Prop :=
  ∀ s : State, ControlInv s → (nextPins s).rst = false →
    (cmdReady s = true → (nextPins s).cmdValid = true →
      step s = exec (decodeCommand (nextPins s).cmd) (consumePins s)) ∧
    (cmdReady s = true → (nextPins s).cmdValid = false → step s = .next (consumePins s)) ∧
    (cmdReady s = false →
      ∃ i, decode (.selector (selectorWord s.PH s.STEP)) = .ok i ∧ step s = exec i (consumePins s)) ∧
    consumePins s = { s with inputs := s.inputs.tail }

/-- An edge at which the port is not ready does the same whatever is offered. Derived from 30_encoding.md section 1 and
40_host_commands.md section 2. -/
def Obligations.NotReadyEdgeIgnoresTheOffer : Prop :=
  ∀ (s : State) (p q : Pins), cmdReady s = false → p.rst = q.rst →
    step { s with inputs := p :: s.inputs } = step { s with inputs := q :: s.inputs }

/-- R340, the complete transition table: for every row the operation that executes and the next `PH`, `STEP` and `RET`;
`rst = 1` overrides every row. The premise is the invariant of R47, which rules out the pairs without a row. -/
def Obligations.TransitionTable : Prop :=
  ∀ s : State, ControlInv s →
    ((nextPins s).rst = true →
      TableRow s (.next (resetEdge (consumePins s))) Config.phAbsorb 0#7 Config.phAbsorb) ∧
    ((nextPins s).rst = false →
      (s.PH = Config.phAbsorb → acceptedCommand s = none →
        TableRow s (.next (consumePins s)) Config.phAbsorb 0#7 s.RET) ∧
      (s.PH = Config.phAbsorb → acceptedCommand s = some .init →
        TableRow s (exec .init (consumePins s)) Config.phAbsorb 0#7 s.RET) ∧
      (∀ v, s.PH = Config.phAbsorb → acceptedCommand s = some (.data v) → (fillIndex s.LEN).toNat < 63 →
        TableRow s (exec (.data v) (consumePins s)) Config.phAbsorb 0#7 s.RET) ∧
      (∀ v, s.PH = Config.phAbsorb → acceptedCommand s = some (.data v) → (fillIndex s.LEN).toNat = 63 →
        TableRow s (exec (.data v) (consumePins s)) Config.phComp 0#7 Config.phAbsorb) ∧
      (s.PH = Config.phAbsorb → acceptedCommand s = some .final →
        TableRow s (exec .final (consumePins s)) Config.phPadf 0#7 s.RET) ∧
      (s.PH = Config.phAbsorb → acceptedCommand s = some .rsvd →
        TableRow s (.next { consumePins s with ERR := true }) Config.phAbsorb 0#7 s.RET) ∧
      (s.PH = Config.phPadf → (fillIndex s.LEN).toNat ≤ 55 →
        TableRow s (exec .padf (consumePins s)) Config.phComp 0#7 Config.phDone) ∧
      (s.PH = Config.phPadf → 56 ≤ (fillIndex s.LEN).toNat →
        TableRow s (exec .padf (consumePins s)) Config.phComp 0#7 Config.phPadl) ∧
      (s.PH = Config.phPadl → TableRow s (exec .padl (consumePins s)) Config.phComp 0#7 Config.phDone) ∧
      (s.PH = Config.phComp → s.STEP = 0#7 →
        TableRow s (exec .load (consumePins s)) Config.phComp 1#7 s.RET) ∧
      (∀ e : Fin 64, s.PH = Config.phComp → s.STEP = BitVec.ofNat 7 (e.val + 1) →
        TableRow s (exec (stepInstr e) (consumePins s)) Config.phComp (BitVec.ofNat 7 (e.val + 2)) s.RET) ∧
      (s.PH = Config.phComp → s.STEP = 65#7 →
        TableRow s (exec .addback (consumePins s)) s.RET 0#7 s.RET) ∧
      (s.PH = Config.phDone → acceptedCommand s = none →
        TableRow s (.next (consumePins s)) Config.phDone 0#7 s.RET) ∧
      (s.PH = Config.phDone → acceptedCommand s = some .init →
        TableRow s (exec .init (consumePins s)) Config.phAbsorb 0#7 s.RET) ∧
      (∀ i, s.PH = Config.phDone → acceptedCommand s = some i → i ≠ .init →
        TableRow s (.next { consumePins s with ERR := true }) Config.phDone 0#7 s.RET))

/-- R400: at an edge with rst = 1, in every state, exactly these writes happen, and the offered command and the due
micro-operation do not execute. -/
def Obligations.ResetEdgeWrites : Prop :=
  ∀ s : State, (nextPins s).rst = true →
    step s = .next { s with
      A := 0x67452301#32, B := 0xefcdab89#32, C := 0x98badcfe#32, D := 0x10325476#32
      LEN := 0#64, PH := 0#3, RET := 0#3, STEP := 0#7, ERR := false, inputs := s.inputs.tail }

/-- The outputs after a reset edge: "After the reset edge the outputs are …", which the spec marks as its own inference from the reset
values and the port definitions (70_reset_and_hazards.md section 1). -/
def Obligations.OutputsAfterReset : Prop :=
  ∀ s t : State, (nextPins s).rst = true → step s = .next t →
    cmdReady t = true ∧ digestValid t = false ∧ err t = false ∧
      digest t = 0x1032547698badcfeefcdab8967452301#128

/-- The machine stops exactly at control values that have no row of the transition table, never with `rst = 1`, and under the
name of the cause. The stop is the model's treatment of 93_implementation_defined.md U3 (log entry 6). -/
def Obligations.StopsExactlyAtUnreachableControl : Prop :=
  ∀ (s : State) (r : Fault), step s = .fault r ↔
    (nextPins s).rst = false ∧
      ((r = .unreachablePhase ∧ 5 ≤ s.PH.toNat) ∨
       (r = .unreachableStep ∧ s.PH.toNat ≤ 4 ∧
          ((s.PH = 1#3 ∧ 66 ≤ s.STEP.toNat) ∨ (s.PH ≠ 1#3 ∧ s.STEP ≠ 0#7))) ∨
       (r = .unreachableReturn ∧ s.PH = 1#3 ∧ s.STEP.toNat ≤ 65 ∧
          s.RET ≠ 0#3 ∧ s.RET ≠ 3#3 ∧ s.RET ≠ 4#3))

/-- 10_state.md R47 (a) to (c) is kept by every step, and a state that has it never stops. Derived from 10_state.md
section 8. -/
def Obligations.EveryStepKeepsTheInvariant : Prop :=
  ∀ s : State, StateInv s → ∃ t, step s = .next t ∧ StateInv t

/-- The reset state has the invariant, and so has every state after a reset edge, whatever came before. Derived from
10_state.md sections 8 and 9. -/
def Obligations.ResetHasTheInvariant : Prop :=
  StateInv State.reset ∧ ∀ s t : State, (nextPins s).rst = true → step s = .next t → StateInv t

/-! ### The host commands (40_host_commands.md) -/

/-- R135: `INIT` in either ready phase. -/
def Obligations.InitStartsANewMessage : Prop :=
  ∀ s : State, (s.PH = Config.phAbsorb ∨ s.PH = Config.phDone) →
    exec .init s = .next { s with
      A := 0x67452301#32, B := 0xefcdab89#32, C := 0x98badcfe#32, D := 0x10325476#32, LEN := 0#64, PH := 0#3 }

/-- R136: `DATA v` in `ABSORB` writes the byte at the fill index, adds 8 to `LEN` modulo 2^64 and, for the byte that fills
the buffer, enters `COMP` with the return to `ABSORB`; in `DONE` it raises ProtocolError and nothing else changes. -/
def Obligations.DataAppendsOneByte : Prop :=
  ∀ (s : State) (v : Byte),
    (s.PH = Config.phAbsorb → (fillIndex s.LEN).toNat ≠ 63 →
      exec (.data v) s = .next { s with X := memWriteByte s.X (fillAddr s.LEN) v, LEN := s.LEN + 8#64 }) ∧
    (s.PH = Config.phAbsorb → (fillIndex s.LEN).toNat = 63 →
      exec (.data v) s = .next { s with
        X := memWriteByte s.X (fillAddr s.LEN) v, LEN := s.LEN + 8#64
        RET := Config.phAbsorb, STEP := 0#7, PH := Config.phComp }) ∧
    (s.PH = Config.phDone → exec (.data v) s = .next { s with ERR := true })

/-- `FINAL` in `ABSORB` enters `PADF` and changes nothing else. Derived from 40_host_commands.md section 3. -/
def Obligations.FinalEntersPadding : Prop :=
  ∀ s : State, s.PH = Config.phAbsorb → exec .final s = .next { s with PH := Config.phPadf }

/-- R138: `RSVD` in either ready phase sets `ERR` and changes no other register. -/
def Obligations.RsvdRaisesProtocolError : Prop :=
  ∀ s : State, (s.PH = Config.phAbsorb ∨ s.PH = Config.phDone) → exec .rsvd s = .next { s with ERR := true }

/-- R139: in `DONE` the commands `DATA`, `FINAL` and `RSVD` are dropped and raise ProtocolError, the phase stays `DONE` and the
digest stays valid and unchanged; only `INIT` has an effect. -/
def Obligations.DoneDropsEveryCommandButInit : Prop :=
  ∀ (s : State) (v : Byte), s.PH = Config.phDone →
    (∀ i, i = .data v ∨ i = .final ∨ i = .rsvd →
      ∃ t, exec i s = .next t ∧ t = { s with ERR := true } ∧ t.PH = Config.phDone ∧ digestValid t = true ∧
        digest t = digest s) ∧
    exec .init s = .next { s with
      A := 0x67452301#32, B := 0xefcdab89#32, C := 0x98badcfe#32, D := 0x10325476#32, LEN := 0#64, PH := 0#3 }

/-- A command in a phase in which the port is not ready waits: its meaning changes nothing. This is the model's reading of
40_host_commands.md section 2 (log entry 5). -/
def Obligations.CommandWaitsWhileNotReady : Prop :=
  ∀ (s : State) (w : BitVec 10), cmdReady s = false → exec (decodeCommand w) s = .next s

/-! ### The block buffer (20_memory.md, 42_block_formatter.md) -/

/-- R72: byte j of BUF is its lane of `X[j div 4]`, and `X[k]` is the little-endian word of its four bytes, as a number
`b0 + 2^8 b1 + 2^16 b2 + 2^24 b3`. -/
def Obligations.BufferIsLittleEndian : Prop :=
  ∀ x : Buffer,
    (∀ j : Fin 64, readByte x j = (x.get ⟨j.val / 4, by omega⟩).extractLsb' (8 * (j.val % 4)) 8) ∧
    (∀ k : Fin 16, (x.get k).toNat =
      (readByte x (byteAddr k 0)).toNat + 2 ^ 8 * (readByte x (byteAddr k 1)).toNat +
        2 ^ 16 * (readByte x (byteAddr k 2)).toNat + 2 ^ 24 * (readByte x (byteAddr k 3)).toNat)

/-- `MemWrite(BUF, j, 1, v)`: the byte reads back, the other 63 bytes and the other 15 words keep their values, and the
operation is decided by the bytes (two buffers with the same bytes are equal). Derived from 20_memory.md section 8. -/
def Obligations.ByteWriteChangesOneLane : Prop :=
  ∀ (x : Buffer) (j : Fin 64) (v : Byte),
    readByte (memWriteByte x j v) j = v ∧
    (∀ i, i ≠ j → readByte (memWriteByte x j v) i = readByte x i) ∧
    (∀ k : Fin 16, k.val ≠ j.val / 4 → (memWriteByte x j v).get k = x.get k) ∧
    (∀ y : Buffer, (∀ i, readByte y i = readByte x i) → y = x)

/-- Which operations write the buffer, and which bytes: `DATA` in `ABSORB` the byte at the fill index alone, `PADF` no byte
below it, `PADL` every byte; no other instruction changes any byte, and no instruction touches the inputs. Derived from 10_state.md section 3 and
42_block_formatter.md section 2. -/
def Obligations.BufferFrame : Prop :=
  ∀ (s t : State) (i : Instr), exec i s = .next t →
    t.inputs = s.inputs ∧
    (∀ j : Fin 64,
      (match i with
        | .data _ => s.PH = Config.phAbsorb → j ≠ fillAddr s.LEN
        | .padf => j.val < (fillIndex s.LEN).toNat
        | .padl => False
        | _ => True) →
      readByte t.X j = readByte s.X j)

/-! ### The padding engine (41_padding_engine.md) -/

/-- R166: `PADF` writes `0x80` at the fill index, zeros above it, the length bytes at 56 to 63 where n <= 55, keeps the message
bytes below, sets `RET`, and enters `COMP`; everything else is unchanged. -/
def Obligations.PadfFormatsTheFirstBlock : Prop :=
  ∀ s : State, ∃ x : Buffer,
    exec .padf s = .next { s with
      X := x, RET := if (fillIndex s.LEN).toNat ≤ 55 then Config.phDone else Config.phPadl
      STEP := 0#7, PH := Config.phComp } ∧
    ∀ j : Fin 64, readByte x j =
      if j.val < (fillIndex s.LEN).toNat then readByte s.X j
      else if j.val = (fillIndex s.LEN).toNat then 0x80#8
      else if (fillIndex s.LEN).toNat ≤ 55 ∧ 56 ≤ j.val then s.LEN.extractLsb' (8 * (j.val - 56)) 8
      else 0x00#8

/-- R168: `PADL` makes `X[0..13]` zero and puts `LEN` into `X[14]` (low half) and `X[15]` (high half), sets `RET` to `DONE` and
enters `COMP`; everything else is unchanged. -/
def Obligations.PadlFormatsTheLengthBlock : Prop :=
  ∀ s : State, ∃ x : Buffer,
    exec .padl s = .next { s with X := x, RET := Config.phDone, STEP := 0#7, PH := Config.phComp } ∧
    (∀ k : Fin 16, k.val < 14 → x.get k = 0#32) ∧
    x.get 14 = s.LEN.extractLsb' 0 32 ∧ x.get 15 = s.LEN.extractLsb' 32 32

/-- `pad(m)`: z is the least number of zero bytes that gives length 56 modulo 64 before the length field. The closed form
(55 - L) mod 64 and the exact padded length are the spec's own inferences, marked "closed form from the rule" and "exact length
from rule R160" (41_padding_engine.md section 1). -/
def Obligations.PadAndItsLength : Prop :=
  ∀ m : List Byte,
    (∃ z : Nat, pad m = m ++ [0x80#8] ++ List.replicate z 0x00#8 ++ le64 (BitVec.ofNat 64 ((8 * m.length) % 2 ^ 64)) ∧
      (m.length + 1 + z) % 64 = 56 ∧ (∀ y, (m.length + 1 + y) % 64 = 56 → z ≤ y) ∧
      (z : Int) = (55 - (m.length : Int)) % 64) ∧
    (pad m).length % 64 = 0 ∧ 0 < (pad m).length ∧ m.length + 9 ≤ (pad m).length ∧
    ((pad m).length - 8) % 64 = 56 ∧
    (pad m).length = 64 * (m.length / 64 + if m.length % 64 ≤ 55 then 1 else 2)

/-- The streaming engine pads as the function does: `pad(m)` is the whole data blocks of m followed by the tail that the
command-level machine pads with the length of the whole message. Derived from 41_padding_engine.md section 3 and
40_host_commands.md section 4. -/
def Obligations.PadIsDataBlocksThenPaddedTail : Prop :=
  ∀ m : List Byte,
    pad m = m.take (64 * (m.length / 64)) ++
      padTail (m.drop (64 * (m.length / 64))) (BitVec.ofNat 64 (8 * m.length))

/-- The round trip of 42_block_formatter.md section 1: the blocks of a sequence of whole blocks give the sequence back byte for byte,
block q its bytes 64q to 64q + 63. That `to_blocks` is `none` for any other length is the model's reading of "undefined" there
(log entry 12, DEDUCED). -/
def Obligations.BlocksRoundTrip : Prop :=
  ∀ p : List Byte,
    (p.length % 64 = 0 → toBlocks p = some (blocksOf p) ∧ (blocksOf p).length = p.length / 64 ∧
      (blocksOf p).flatMap (fun x => x.toList.flatMap le32) = p ∧
      ∀ (q : Nat) (x : Buffer), (blocksOf p)[q]? = some x → x.toList.flatMap le32 = (p.drop (64 * q)).take 64) ∧
    (p.length % 64 ≠ 0 → toBlocks p = none)

/-! ### The datapath (43_datapath_units.md) and the ROMs (44_constant_rom_and_schedule.md) -/

/-- ADD32 and SUM4 are the sums modulo 2^32, with the corner cases. That the order of the operands does not matter is the spec's own
inference, marked "addition modulo 2^32 is a commutative group operation" (43_datapath_units.md section 2). -/
def Obligations.AdderIsModular : Prop :=
  ∀ w x y z : Word,
    (add32 x y).toNat = (x.toNat + y.toNat) % 2 ^ 32 ∧
    (sum4 w x y z).toNat = (w.toNat + x.toNat + y.toNat + z.toNat) % 2 ^ 32 ∧
    add32 x y = add32 y x ∧ add32 (add32 x y) z = add32 x (add32 y z) ∧ add32 x 0#32 = x ∧
    add32 0xffffffff#32 1#32 = 0#32 ∧ add32 0x80000000#32 0x80000000#32 = 0#32

/-- R203: bit j of ROTL32(x, s) is bit (j - s) mod 32 of x, and the formula by powers of two for s of 1 to 31. -/
def Obligations.RotatorMovesBitsCircularly : Prop :=
  ∀ (x : Word) (s : BitVec 5),
    (∀ j : Nat, j < 32 → (rotl32 x s).getLsbD j = x.getLsbD ((j + 32 - s.toNat) % 32)) ∧
    (1 ≤ s.toNat →
      (rotl32 x s).toNat = (x.toNat * 2 ^ s.toNat) % 2 ^ 32 + x.toNat / 2 ^ (32 - s.toNat))

/-- Amount 0 is the identity and rotating by s and then by (32 - s) mod 32 gives the word back. Derived from
43_datapath_units.md section 3. -/
def Obligations.RotatorLosesNoBit : Prop :=
  ∀ (x : Word) (s t : BitVec 5), rotl32 x 0#5 = x ∧
    (t.toNat = (32 - s.toNat) % 32 → rotl32 (rotl32 x s) t = x)

/-- R205 to R208 and R210 to R213: the bitwise unit and the four round functions, bit by bit. -/
def Obligations.RoundFunctionsBitByBit : Prop :=
  ∀ (x y z : Word) (j : Nat), j < 32 →
    (and32 x y).getLsbD j = (x.getLsbD j && y.getLsbD j) ∧
    (or32 x y).getLsbD j = (x.getLsbD j || y.getLsbD j) ∧
    (xor32 x y).getLsbD j = (x.getLsbD j != y.getLsbD j) ∧
    ((not32 x).getLsbD j = !x.getLsbD j) ∧ (not32 x).toNat = 0xffffffff - x.toNat ∧
    (not32 x = xor32 x 0xffffffff#32) ∧
    (fsel 0#2 x y z).getLsbD j = (if x.getLsbD j then y.getLsbD j else z.getLsbD j) ∧
    (fsel 1#2 x y z).getLsbD j = (if z.getLsbD j then x.getLsbD j else y.getLsbD j) ∧
    (fsel 2#2 x y z).getLsbD j = ((x.getLsbD j != y.getLsbD j) != z.getLsbD j) ∧
    (fsel 3#2 x y z).getLsbD j = (y.getLsbD j != (x.getLsbD j || !z.getLsbD j)) ∧
    fsel 0#2 x y z = or32 (and32 x y) (and32 (not32 x) z) ∧
    fsel 1#2 x y z = or32 (and32 x z) (and32 y (not32 z)) ∧
    fsel 2#2 x y z = xor32 (xor32 x y) z ∧
    fsel 3#2 x y z = xor32 y (or32 x (not32 z))

/-- The worked example of STEPFN, whose values the spec marks as derived from its rules (43_datapath_units.md section 6). -/
def Obligations.StepFunctionWorkedExample : Prop :=
  roundF 0xefcdab89#32 0x98badcfe#32 0x10325476#32 = 0x98badcfe#32 ∧
    sum4 0x67452301#32 0x98badcfe#32 0x00000080#32 0xd76aa478#32 = 0xd76aa4f7#32 ∧
    rotl32 0xd76aa4f7#32 7#5 = 0xb5527beb#32 ∧
    stepFn 0x67452301#32 0xefcdab89#32 0x98badcfe#32 0x10325476#32 0x00000080#32 0xd76aa478#32 7#5 0#2 =
      0xa5202774#32

/-- R242 to R245: the ROM entries follow the formulas for the round function, the message-word index, the rotation amount and
the destination register. -/
def Obligations.ScheduleFollowsTheFormulas : Prop :=
  ∀ e : Fin 64,
    (swFsel (sromAt e)).toNat = e.val / 16 ∧
    (swK (sromAt e)).toNat =
      (match e.val / 16 with
        | 0 => e.val % 16
        | 1 => (1 + 5 * (e.val % 16)) % 16
        | 2 => (5 + 3 * (e.val % 16)) % 16
        | _ => (7 * (e.val % 16)) % 16) ∧
    (swS (sromAt e)).toNat =
      (match e.val / 16 with
        | 0 => [7, 12, 17, 22]
        | 1 => [5, 9, 14, 20]
        | 2 => [4, 11, 16, 23]
        | _ => [6, 10, 15, 21]).getD (e.val % 4) 0 ∧
    dstOf e = [Dst.a, Dst.d, Dst.c, Dst.b].getD (e.val % 4) Dst.a

/-- Each round uses each message word exactly once. The spec marks this as its own inference ("1, 5, 3, 7 are odd, hence
invertible modulo 16", 44_constant_rom_and_schedule.md). -/
def Obligations.EachRoundUsesEachWordOnce : Prop :=
  ∀ (r : Fin 4) (k : Fin 16), ∃! j : Fin 16,
    (swK (sromAt ⟨16 * r.val + j.val, by omega⟩)).toNat = k.val

/-! ### The sequencer (45_compression_sequencer.md) -/

/-- R262: `LOAD` copies the chaining registers to the working registers and goes to step 1; nothing else changes. -/
def Obligations.LoadCopiesTheChainingRegisters : Prop :=
  ∀ s : State, exec .load s = .next { s with a := s.A, b := s.B, c := s.C, d := s.D, STEP := 1#7 }

/-- `STEP 1` to `STEP 8` (45_compression_sequencer.md R265 to R272): each answers a next state in which its destination holds
STEPFN of the literals of its rule, `STEP` the next index, and everything else its old value. -/
def Obligations.Steps1To8WriteOneWorkingRegister : Prop :=
  ∀ s : State,
    exec .step1 s = .next { s with a := stepFn s.a s.b s.c s.d (s.X.get 0) 0xd76aa478#32 7#5 0#2, STEP := 2#7 } ∧
    exec .step2 s = .next { s with d := stepFn s.d s.a s.b s.c (s.X.get 1) 0xe8c7b756#32 12#5 0#2, STEP := 3#7 } ∧
    exec .step3 s = .next { s with c := stepFn s.c s.d s.a s.b (s.X.get 2) 0x242070db#32 17#5 0#2, STEP := 4#7 } ∧
    exec .step4 s = .next { s with b := stepFn s.b s.c s.d s.a (s.X.get 3) 0xc1bdceee#32 22#5 0#2, STEP := 5#7 } ∧
    exec .step5 s = .next { s with a := stepFn s.a s.b s.c s.d (s.X.get 4) 0xf57c0faf#32 7#5 0#2, STEP := 6#7 } ∧
    exec .step6 s = .next { s with d := stepFn s.d s.a s.b s.c (s.X.get 5) 0x4787c62a#32 12#5 0#2, STEP := 7#7 } ∧
    exec .step7 s = .next { s with c := stepFn s.c s.d s.a s.b (s.X.get 6) 0xa8304613#32 17#5 0#2, STEP := 8#7 } ∧
    exec .step8 s = .next { s with b := stepFn s.b s.c s.d s.a (s.X.get 7) 0xfd469501#32 22#5 0#2, STEP := 9#7 }

/-- `STEP 9` to `STEP 16` (45_compression_sequencer.md R273 to R280): each answers a next state in which its destination holds
STEPFN of the literals of its rule, `STEP` the next index, and everything else its old value. -/
def Obligations.Steps9To16WriteOneWorkingRegister : Prop :=
  ∀ s : State,
    exec .step9 s = .next { s with a := stepFn s.a s.b s.c s.d (s.X.get 8) 0x698098d8#32 7#5 0#2, STEP := 10#7 } ∧
    exec .step10 s = .next { s with d := stepFn s.d s.a s.b s.c (s.X.get 9) 0x8b44f7af#32 12#5 0#2, STEP := 11#7 } ∧
    exec .step11 s = .next { s with c := stepFn s.c s.d s.a s.b (s.X.get 10) 0xffff5bb1#32 17#5 0#2, STEP := 12#7 } ∧
    exec .step12 s = .next { s with b := stepFn s.b s.c s.d s.a (s.X.get 11) 0x895cd7be#32 22#5 0#2, STEP := 13#7 } ∧
    exec .step13 s = .next { s with a := stepFn s.a s.b s.c s.d (s.X.get 12) 0x6b901122#32 7#5 0#2, STEP := 14#7 } ∧
    exec .step14 s = .next { s with d := stepFn s.d s.a s.b s.c (s.X.get 13) 0xfd987193#32 12#5 0#2, STEP := 15#7 } ∧
    exec .step15 s = .next { s with c := stepFn s.c s.d s.a s.b (s.X.get 14) 0xa679438e#32 17#5 0#2, STEP := 16#7 } ∧
    exec .step16 s = .next { s with b := stepFn s.b s.c s.d s.a (s.X.get 15) 0x49b40821#32 22#5 0#2, STEP := 17#7 }

/-- `STEP 17` to `STEP 24` (45_compression_sequencer.md R281 to R288): each answers a next state in which its destination holds
STEPFN of the literals of its rule, `STEP` the next index, and everything else its old value. -/
def Obligations.Steps17To24WriteOneWorkingRegister : Prop :=
  ∀ s : State,
    exec .step17 s = .next { s with a := stepFn s.a s.b s.c s.d (s.X.get 1) 0xf61e2562#32 5#5 1#2, STEP := 18#7 } ∧
    exec .step18 s = .next { s with d := stepFn s.d s.a s.b s.c (s.X.get 6) 0xc040b340#32 9#5 1#2, STEP := 19#7 } ∧
    exec .step19 s = .next { s with c := stepFn s.c s.d s.a s.b (s.X.get 11) 0x265e5a51#32 14#5 1#2, STEP := 20#7 } ∧
    exec .step20 s = .next { s with b := stepFn s.b s.c s.d s.a (s.X.get 0) 0xe9b6c7aa#32 20#5 1#2, STEP := 21#7 } ∧
    exec .step21 s = .next { s with a := stepFn s.a s.b s.c s.d (s.X.get 5) 0xd62f105d#32 5#5 1#2, STEP := 22#7 } ∧
    exec .step22 s = .next { s with d := stepFn s.d s.a s.b s.c (s.X.get 10) 0x02441453#32 9#5 1#2, STEP := 23#7 } ∧
    exec .step23 s = .next { s with c := stepFn s.c s.d s.a s.b (s.X.get 15) 0xd8a1e681#32 14#5 1#2, STEP := 24#7 } ∧
    exec .step24 s = .next { s with b := stepFn s.b s.c s.d s.a (s.X.get 4) 0xe7d3fbc8#32 20#5 1#2, STEP := 25#7 }

/-- `STEP 25` to `STEP 32` (45_compression_sequencer.md R289 to R296): each answers a next state in which its destination holds
STEPFN of the literals of its rule, `STEP` the next index, and everything else its old value. -/
def Obligations.Steps25To32WriteOneWorkingRegister : Prop :=
  ∀ s : State,
    exec .step25 s = .next { s with a := stepFn s.a s.b s.c s.d (s.X.get 9) 0x21e1cde6#32 5#5 1#2, STEP := 26#7 } ∧
    exec .step26 s = .next { s with d := stepFn s.d s.a s.b s.c (s.X.get 14) 0xc33707d6#32 9#5 1#2, STEP := 27#7 } ∧
    exec .step27 s = .next { s with c := stepFn s.c s.d s.a s.b (s.X.get 3) 0xf4d50d87#32 14#5 1#2, STEP := 28#7 } ∧
    exec .step28 s = .next { s with b := stepFn s.b s.c s.d s.a (s.X.get 8) 0x455a14ed#32 20#5 1#2, STEP := 29#7 } ∧
    exec .step29 s = .next { s with a := stepFn s.a s.b s.c s.d (s.X.get 13) 0xa9e3e905#32 5#5 1#2, STEP := 30#7 } ∧
    exec .step30 s = .next { s with d := stepFn s.d s.a s.b s.c (s.X.get 2) 0xfcefa3f8#32 9#5 1#2, STEP := 31#7 } ∧
    exec .step31 s = .next { s with c := stepFn s.c s.d s.a s.b (s.X.get 7) 0x676f02d9#32 14#5 1#2, STEP := 32#7 } ∧
    exec .step32 s = .next { s with b := stepFn s.b s.c s.d s.a (s.X.get 12) 0x8d2a4c8a#32 20#5 1#2, STEP := 33#7 }

/-- `STEP 33` to `STEP 40` (45_compression_sequencer.md R297 to R304): each answers a next state in which its destination holds
STEPFN of the literals of its rule, `STEP` the next index, and everything else its old value. -/
def Obligations.Steps33To40WriteOneWorkingRegister : Prop :=
  ∀ s : State,
    exec .step33 s = .next { s with a := stepFn s.a s.b s.c s.d (s.X.get 5) 0xfffa3942#32 4#5 2#2, STEP := 34#7 } ∧
    exec .step34 s = .next { s with d := stepFn s.d s.a s.b s.c (s.X.get 8) 0x8771f681#32 11#5 2#2, STEP := 35#7 } ∧
    exec .step35 s = .next { s with c := stepFn s.c s.d s.a s.b (s.X.get 11) 0x6d9d6122#32 16#5 2#2, STEP := 36#7 } ∧
    exec .step36 s = .next { s with b := stepFn s.b s.c s.d s.a (s.X.get 14) 0xfde5380c#32 23#5 2#2, STEP := 37#7 } ∧
    exec .step37 s = .next { s with a := stepFn s.a s.b s.c s.d (s.X.get 1) 0xa4beea44#32 4#5 2#2, STEP := 38#7 } ∧
    exec .step38 s = .next { s with d := stepFn s.d s.a s.b s.c (s.X.get 4) 0x4bdecfa9#32 11#5 2#2, STEP := 39#7 } ∧
    exec .step39 s = .next { s with c := stepFn s.c s.d s.a s.b (s.X.get 7) 0xf6bb4b60#32 16#5 2#2, STEP := 40#7 } ∧
    exec .step40 s = .next { s with b := stepFn s.b s.c s.d s.a (s.X.get 10) 0xbebfbc70#32 23#5 2#2, STEP := 41#7 }

/-- `STEP 41` to `STEP 48` (45_compression_sequencer.md R305 to R312): each answers a next state in which its destination holds
STEPFN of the literals of its rule, `STEP` the next index, and everything else its old value. -/
def Obligations.Steps41To48WriteOneWorkingRegister : Prop :=
  ∀ s : State,
    exec .step41 s = .next { s with a := stepFn s.a s.b s.c s.d (s.X.get 13) 0x289b7ec6#32 4#5 2#2, STEP := 42#7 } ∧
    exec .step42 s = .next { s with d := stepFn s.d s.a s.b s.c (s.X.get 0) 0xeaa127fa#32 11#5 2#2, STEP := 43#7 } ∧
    exec .step43 s = .next { s with c := stepFn s.c s.d s.a s.b (s.X.get 3) 0xd4ef3085#32 16#5 2#2, STEP := 44#7 } ∧
    exec .step44 s = .next { s with b := stepFn s.b s.c s.d s.a (s.X.get 6) 0x04881d05#32 23#5 2#2, STEP := 45#7 } ∧
    exec .step45 s = .next { s with a := stepFn s.a s.b s.c s.d (s.X.get 9) 0xd9d4d039#32 4#5 2#2, STEP := 46#7 } ∧
    exec .step46 s = .next { s with d := stepFn s.d s.a s.b s.c (s.X.get 12) 0xe6db99e5#32 11#5 2#2, STEP := 47#7 } ∧
    exec .step47 s = .next { s with c := stepFn s.c s.d s.a s.b (s.X.get 15) 0x1fa27cf8#32 16#5 2#2, STEP := 48#7 } ∧
    exec .step48 s = .next { s with b := stepFn s.b s.c s.d s.a (s.X.get 2) 0xc4ac5665#32 23#5 2#2, STEP := 49#7 }

/-- `STEP 49` to `STEP 56` (45_compression_sequencer.md R313 to R320): each answers a next state in which its destination holds
STEPFN of the literals of its rule, `STEP` the next index, and everything else its old value. -/
def Obligations.Steps49To56WriteOneWorkingRegister : Prop :=
  ∀ s : State,
    exec .step49 s = .next { s with a := stepFn s.a s.b s.c s.d (s.X.get 0) 0xf4292244#32 6#5 3#2, STEP := 50#7 } ∧
    exec .step50 s = .next { s with d := stepFn s.d s.a s.b s.c (s.X.get 7) 0x432aff97#32 10#5 3#2, STEP := 51#7 } ∧
    exec .step51 s = .next { s with c := stepFn s.c s.d s.a s.b (s.X.get 14) 0xab9423a7#32 15#5 3#2, STEP := 52#7 } ∧
    exec .step52 s = .next { s with b := stepFn s.b s.c s.d s.a (s.X.get 5) 0xfc93a039#32 21#5 3#2, STEP := 53#7 } ∧
    exec .step53 s = .next { s with a := stepFn s.a s.b s.c s.d (s.X.get 12) 0x655b59c3#32 6#5 3#2, STEP := 54#7 } ∧
    exec .step54 s = .next { s with d := stepFn s.d s.a s.b s.c (s.X.get 3) 0x8f0ccc92#32 10#5 3#2, STEP := 55#7 } ∧
    exec .step55 s = .next { s with c := stepFn s.c s.d s.a s.b (s.X.get 10) 0xffeff47d#32 15#5 3#2, STEP := 56#7 } ∧
    exec .step56 s = .next { s with b := stepFn s.b s.c s.d s.a (s.X.get 1) 0x85845dd1#32 21#5 3#2, STEP := 57#7 }

/-- `STEP 57` to `STEP 64` (45_compression_sequencer.md R321 to R328): each answers a next state in which its destination holds
STEPFN of the literals of its rule, `STEP` the next index, and everything else its old value. -/
def Obligations.Steps57To64WriteOneWorkingRegister : Prop :=
  ∀ s : State,
    exec .step57 s = .next { s with a := stepFn s.a s.b s.c s.d (s.X.get 8) 0x6fa87e4f#32 6#5 3#2, STEP := 58#7 } ∧
    exec .step58 s = .next { s with d := stepFn s.d s.a s.b s.c (s.X.get 15) 0xfe2ce6e0#32 10#5 3#2, STEP := 59#7 } ∧
    exec .step59 s = .next { s with c := stepFn s.c s.d s.a s.b (s.X.get 6) 0xa3014314#32 15#5 3#2, STEP := 60#7 } ∧
    exec .step60 s = .next { s with b := stepFn s.b s.c s.d s.a (s.X.get 13) 0x4e0811a1#32 21#5 3#2, STEP := 61#7 } ∧
    exec .step61 s = .next { s with a := stepFn s.a s.b s.c s.d (s.X.get 4) 0xf7537e82#32 6#5 3#2, STEP := 62#7 } ∧
    exec .step62 s = .next { s with d := stepFn s.d s.a s.b s.c (s.X.get 11) 0xbd3af235#32 10#5 3#2, STEP := 63#7 } ∧
    exec .step63 s = .next { s with c := stepFn s.c s.d s.a s.b (s.X.get 2) 0x2ad7d2bb#32 15#5 3#2, STEP := 64#7 } ∧
    exec .step64 s = .next { s with b := stepFn s.b s.c s.d s.a (s.X.get 9) 0xeb86d391#32 21#5 3#2, STEP := 65#7 }

/-- R263, the template of the 64 steps: `STEP i` writes its destination, (a, d, c, b)[(i-1) mod 4], with STEPFN of the old
registers, the buffer word and the ROM entries i - 1, and `STEP` with i + 1; nothing else changes, and no input matters. -/
def Obligations.EveryStepFollowsTheTemplate : Prop :=
  ∀ (e : Fin 64) (s : State), ∃ t, exec (stepInstr e) s = .next t ∧
    (let f (ra rb rc rd : Word) : Word :=
      stepFn ra rb rc rd (s.X.get ⟨(swK (sromAt e)).toNat, (swK (sromAt e)).isLt⟩) (tromAt e) (swS (sromAt e))
        (swFsel (sromAt e))
     t = { s with
      a := if e.val % 4 = 0 then f s.a s.b s.c s.d else s.a
      d := if e.val % 4 = 1 then f s.d s.a s.b s.c else s.d
      c := if e.val % 4 = 2 then f s.c s.d s.a s.b else s.c
      b := if e.val % 4 = 3 then f s.b s.c s.d s.a else s.b
      STEP := BitVec.ofNat 7 (e.val + 2) })

/-- R330: `ADDBACK` adds the working registers to the chaining registers modulo 2^32 and returns to the phase in `RET`; nothing
else changes. -/
def Obligations.AddbackFeedsForwardAndReturns : Prop :=
  ∀ s : State,
    exec .addback s = .next { s with
      A := add32 s.A s.a, B := add32 s.B s.b, C := add32 s.C s.c, D := add32 s.D s.d, STEP := 0#7, PH := s.RET }

/-- The 66 micro-operations from `COMP`, `STEP = 0`, without reset, end with the chaining registers at `compress` of the
buffer and their entry values, `STEP = 0`, `PH = RET`, and `X`, `LEN`, `RET`, `ERR` unchanged; at every edge before the end the
machine is in `COMP` at the step the edges have reached, so nothing interrupts it. The spec states it ("ends after 66
micro-operations with …") and marks it as derived from the rules of the micro-operations (45_compression_sequencer.md section 2). -/
def Obligations.SixtySixEdgesCompressTheBlock : Prop :=
  ∀ s : State, s.PH = Config.phComp → s.STEP = 0#7 → returnLegal s.RET = true → NoReset 66 s →
    (∃ t, run 66 s = .next t ∧ chainOf t = compress s.X (chainOf s) ∧ t.STEP = 0#7 ∧ t.PH = s.RET ∧
      t.X = s.X ∧ t.LEN = s.LEN ∧ t.RET = s.RET ∧ t.ERR = s.ERR ∧ t.inputs = s.inputs.drop 66) ∧
    (∀ k, k < 66 → ∃ u, run k s = .next u ∧ u.PH = Config.phComp ∧ u.STEP.toNat = k)

/-- The rotating form of `compress` is the same function; and after any k steps its four variables are the named registers in
the order in which the next step takes the roles of a, b, c, d. The spec states it ("After step i the tuple (p, q, r, t) equals …")
and marks it as derived (45_compression_sequencer.md section 1). -/
def Obligations.RotatingFormIsCompress : Prop :=
  ∀ (x : Buffer) (st : Chain),
    compressRotating x st = compress x st ∧
    ∀ k : Nat, k ≤ 64 →
      let w := ((List.finRange 64).take k).foldl (compressStep x) st
      ((List.finRange 64).take k).foldl (rotatingStep x) st =
        if k % 4 = 0 then ⟨w.A, w.B, w.C, w.D⟩
        else if k % 4 = 1 then ⟨w.D, w.A, w.B, w.C⟩
        else if k % 4 = 2 then ⟨w.C, w.D, w.A, w.B⟩
        else ⟨w.B, w.C, w.D, w.A⟩

/-- The block the sequencer reads is the block that was complete at `LOAD`: while the port is not ready no command is accepted, and
while the phase is `COMP` no edge without reset changes the buffer or `LEN`. Derived from 20_memory.md section 6. -/
def Obligations.NotReadyInterlock : Prop :=
  ∀ s t : State, (nextPins s).rst = false → cmdReady s = false → step s = .next t →
    acceptedCommand s = none ∧ (s.PH = Config.phComp → t.X = s.X ∧ t.LEN = s.LEN)

/-- From every state with legal control that is not ready, without reset, whatever the host offers, the machine is ready
after at most 134 edges. The spec states it ("the FSM reaches a ready phase … after at most 1 + 66 + 1 + 66 = 134 edges") and marks
it as derived from the transition table (45_compression_sequencer.md section 3). -/
def Obligations.ReadyAgainWithin134Edges : Prop :=
  ∀ s : State, ControlInv s → cmdReady s = false → NoReset 134 s →
    ∃ k t, k ≤ 134 ∧ run k s = .next t ∧ cmdReady t = true

/-- Which instructions write the general registers: the chaining registers `INIT` and `ADDBACK` only, each working register
`LOAD` and its own quarter of the steps only. Derived from 10_state.md section 2. -/
def Obligations.GeneralRegisterWriters : Prop :=
  ∀ (s t : State) (i : Instr), exec i s = .next t →
    (chainOf t = chainOf s ∨ i = .init ∨ i = .addback) ∧
    (t.a = s.a ∨ i = .load ∨ ∃ e : Fin 64, i = stepInstr e ∧ e.val % 4 = 0) ∧
    (t.d = s.d ∨ i = .load ∨ ∃ e : Fin 64, i = stepInstr e ∧ e.val % 4 = 1) ∧
    (t.c = s.c ∨ i = .load ∨ ∃ e : Fin 64, i = stepInstr e ∧ e.val % 4 = 2) ∧
    (t.b = s.b ∨ i = .load ∨ ∃ e : Fin 64, i = stepInstr e ∧ e.val % 4 = 3)

/-- Which instructions write the system registers, and with what: `LEN` `INIT` (0) and `DATA` (plus 8); `RET` `DATA`
(`ABSORB`), `PADF` (`DONE` or `PADL`), `PADL` (`DONE`); `ERR` is only ever set, by `DATA`, `FINAL`, `RSVD`; `STEP` and `PH` as the
transition table says. Derived from 10_state.md section 4. -/
def Obligations.SystemRegisterWriters : Prop :=
  ∀ (s t : State) (i : Instr), exec i s = .next t →
    (t.LEN = s.LEN ∨ (i = .init ∧ t.LEN = 0#64) ∨ ((∃ v, i = .data v) ∧ t.LEN = s.LEN + 8#64)) ∧
    (t.RET = s.RET ∨ ((∃ v, i = .data v) ∧ t.RET = Config.phAbsorb) ∨
      (i = .padf ∧ (t.RET = Config.phDone ∨ t.RET = Config.phPadl)) ∨ (i = .padl ∧ t.RET = Config.phDone)) ∧
    (t.ERR = s.ERR ∨ (t.ERR = true ∧ ((∃ v, i = .data v) ∨ i = .final ∨ i = .rsvd))) ∧
    (t.STEP = s.STEP ∨ (t.STEP = 0#7 ∧ ((∃ v, i = .data v) ∨ i = .padf ∨ i = .padl ∨ i = .addback)) ∨
      (i = .load ∧ t.STEP = 1#7) ∨ ∃ e : Fin 64, i = stepInstr e ∧ t.STEP = BitVec.ofNat 7 (e.val + 2)) ∧
    (t.PH = s.PH ∨ (i = .init ∧ t.PH = Config.phAbsorb) ∨ (i = .final ∧ t.PH = Config.phPadf) ∨
      (((∃ v, i = .data v) ∨ i = .padf ∨ i = .padl) ∧ t.PH = Config.phComp) ∨ (i = .addback ∧ t.PH = s.RET))

/-! ### The digest port (46_finalizer.md) -/

/-- The port is D, C, B, A from the top, byte j of it is byte j of `finalize`, and its value is UNLE128 of the sixteen
bytes, at all times. The spec states it and marks it as derived from the definition of `finalize` (46_finalizer.md section 2). -/
def Obligations.DigestPortIsFinalize : Prop :=
  ∀ s : State,
    (digest s).extractLsb' 0 32 = s.A ∧ (digest s).extractLsb' 32 32 = s.B ∧
    (digest s).extractLsb' 64 32 = s.C ∧ (digest s).extractLsb' 96 32 = s.D ∧
    (finalize (chainOf s)).length = 16 ∧
    (∀ j, j < 16 → (finalize (chainOf s))[j]? = some ((digest s).extractLsb' (8 * j) 8)) ∧
    digest s = unle128 (finalize (chainOf s))

/-- R353: from `DONE`, over any number of edges without reset and without an accepted `INIT`, the digest stays valid and
unchanged. -/
def Obligations.DigestStaysUntilInitOrReset : Prop :=
  ∀ (k : Nat) (s : State), ControlInv s → s.PH = Config.phDone → NoReset k s → Instr.init ∉ acceptedTrace k s →
    ∃ t, run k s = .next t ∧ t.PH = Config.phDone ∧ digestValid t = true ∧ digest t = digest s

/-! ### ProtocolError (60_exceptions.md) -/

/-- R372: at an edge without reset, an accepted command of the cause list sets `ERR` and does nothing else, and any other edge leaves
`ERR` as it is. -/
def Obligations.ProtocolErrorCausesAndEffect : Prop :=
  ∀ s : State, ControlInv s → (nextPins s).rst = false →
    let cause := acceptedCommand s = some .rsvd ∨
      (s.PH = Config.phDone ∧ (acceptedCommand s = some .final ∨ ∃ v, acceptedCommand s = some (.data v)))
    (cause → step s = .next { consumePins s with ERR := true }) ∧
    (¬ cause → ∃ t, step s = .next t ∧ t.ERR = s.ERR)

/-- R373: `ERR` is sticky until reset, which clears it, and nothing reads it: a run without reset from the state with `ERR` set
is the run from the state without, with `ERR` set in its end state. -/
def Obligations.ErrIsStickyAndReadByNothing : Prop :=
  (∀ (k : Nat) (s t : State), NoReset k s → s.ERR = true → run k s = .next t → t.ERR = true ∧ err t = true) ∧
  (∀ s t : State, (nextPins s).rst = true → step s = .next t → t.ERR = false) ∧
  (∀ (k : Nat) (s t : State), NoReset k s → run k s = .next t →
    run k { s with ERR := true } = .next { t with ERR := true })

/-! ### Headlines -/

/-- No rule reads what reset leaves unspecified: two states that differ at most in dead buffer bytes and dead working registers go on
to such states, with the same outputs, at every edge; and a reset edge makes any two states with the same
inputs such a pair. So nothing a host sees depends on the reset values of `a` to `d` and `X` that the model chose (log
entry 2). Derived from 10_state.md sections 8 and 9. -/
def Obligations.UnspecifiedValuesAreNeverObserved : Prop :=
  (∀ s t : State, ControlInv s → Agree s t → ∃ s' t', step s = .next s' ∧ step t = .next t' ∧ Agree s' t' ∧
    cmdReady s' = cmdReady t' ∧ digestValid s' = digestValid t' ∧ digest s' = digest t' ∧ err s' = err t') ∧
  (∀ s t : State, s.inputs = t.inputs → (nextPins s).rst = true → ∃ s' t', step s = .next s' ∧ step t = .next t' ∧
    Agree s' t')

/-- Between two ready states the hardware does what the command-level machine of 40_host_commands.md section 4 does in one command
(the spec says "equivalent, for every observation a host can make through the handshake" and marks it as derived): from a ready state, an
accepted command and at most 134 further edges without reset lead to the next ready state, which stands for the
result of that command; in between the port is not ready and the digest not valid. The reset states correspond too. -/
def Obligations.CommandLevelMachineIsImplemented : Prop :=
  abstractState State.reset = cmdReset ∧
  (∀ s t : State, (nextPins s).rst = true → step s = .next t → abstractState t = cmdReset) ∧
  (∀ (s : State) (i : Instr), ControlInv s → cmdReady s = true → acceptedCommand s = some i → NoReset 135 s →
    ∃ k t, k ≤ 134 ∧ run (k + 1) s = .next t ∧ ControlInv t ∧ cmdReady t = true ∧
      abstractState t = cmdExec i (abstractState s) ∧ t.inputs = s.inputs.drop (k + 1) ∧
      (∀ j, 0 < j → j ≤ k → ∃ u, run j s = .next u ∧ cmdReady u = false ∧ digestValid u = false))

/-- The refinement: from `ABSORB` with `LEN = 0` and the IV, once the accepted commands are exactly `DATA` of each byte of m in
order and then `FINAL`, with no reset, the machine reaches `DONE` after at most 134 further edges in which no command
is accepted, and from then on, until another command is accepted or reset, the digest port holds md5_digest(m). The spec states it
("then after finitely many further edges …") and marks it as derived from its rules (40_host_commands.md section 1). -/
def Obligations.DigestOfEveryMessage : Prop :=
  ∀ (s : State) (m : List Byte) (k : Nat), ControlInv s → s.PH = Config.phAbsorb → s.LEN = 0#64 → chainOf s = iv →
    NoReset k s → acceptedTrace k s = m.map Instr.data ++ [Instr.final] →
    ∃ j, j ≤ 134 ∧
      (NoReset (k + j) s → acceptedTrace (k + j) s = m.map Instr.data ++ [Instr.final]) ∧
      ∀ n, j ≤ n → NoReset (k + n) s → acceptedTrace (k + n) s = m.map Instr.data ++ [Instr.final] →
        ∃ t, run (k + n) s = .next t ∧ t.PH = Config.phDone ∧ digest t = unle128 (md5Digest m) ∧
          (md5Digest m).length = 16 ∧
          ∀ b, b < 16 → (md5Digest m)[b]? = some ((digest t).extractLsb' (8 * b) 8)
end

