-- ==== Sys2Proof/Laws/Buffer.lean ====
section
/-!
SUPPORT. What the byte-lane operations on the block buffer do: a byte read after a write (the laws of 20_memory.md R72, R85),
and that two buffers with the same 64 bytes are the same buffer (the buffer has one form: every address is present).
-/

namespace Sys2Proof.Machine

theorem getLsbD_wordByte (x : Word) (l i : Nat) :
    (wordByte x l).getLsbD i = (decide (i < 8) && x.getLsbD (8 * l + i)) := by
  simp [wordByte, BitVec.getLsbD_extractLsb']

theorem getLsbD_unle32 (b0 b1 b2 b3 : Byte) (i : Nat) :
    (unle32 b0 b1 b2 b3).getLsbD i =
      if i < 8 then b0.getLsbD i else if i < 16 then b1.getLsbD (i - 8)
      else if i < 24 then b2.getLsbD (i - 16) else b3.getLsbD (i - 24) := by
  have h1 : i - 8 - 8 = i - 16 := by omega
  have h2 : i - 16 - 8 = i - 24 := by omega
  simp only [unle32, BitVec.getLsbD_append, h1, h2]
  have e1 : i - 8 < 8 ↔ i < 16 := by omega
  have e2 : i - 16 < 8 ↔ i < 24 := by omega
  simp only [e1, e2]

/-- A byte of a packed word is the byte given for its lane. -/
theorem wordByte_unle32 (f : Fin 4 → Byte) (l : Fin 4) :
    wordByte (unle32 (f 0) (f 1) (f 2) (f 3)) l.val = f l := by
  apply BitVec.eq_of_getLsbD_eq
  intro i hi
  rw [getLsbD_wordByte, getLsbD_unle32]
  match l with
  | 0 => simp [hi]
  | 1 =>
    have h1 : ¬ 8 * 1 + i < 8 := by omega
    have h2 : 8 * 1 + i < 16 := by omega
    simp [hi, h1, h2]
  | 2 =>
    have h1 : ¬ 8 * 2 + i < 8 := by omega
    have h2 : ¬ 8 * 2 + i < 16 := by omega
    have h3 : 8 * 2 + i < 24 := by omega
    simp [hi, h1, h2, h3]
  | 3 =>
    have h1 : ¬ 8 * 3 + i < 8 := by omega
    have h2 : ¬ 8 * 3 + i < 16 := by omega
    have h3 : ¬ 8 * 3 + i < 24 := by omega
    simp [hi, h1, h2, h3]

/-- A word is the packing of its four bytes. -/
theorem unle32_wordByte (x : Word) :
    unle32 (wordByte x 0) (wordByte x 1) (wordByte x 2) (wordByte x 3) = x := by
  apply BitVec.eq_of_getLsbD_eq
  intro i hi
  simp only [getLsbD_unle32, getLsbD_wordByte]
  split
  · simp [*]
  · split
    · have : i - 8 < 8 := by omega
      simp only [this, decide_true, Bool.true_and]; congr 1; omega
    · split
      · have : i - 16 < 8 := by omega
        simp only [this, decide_true, Bool.true_and]; congr 1; omega
      · have : i - 24 < 8 := by omega
        simp only [this, decide_true, Bool.true_and]; congr 1; omega

/-- The word index and the lane of a byte address. -/
def wordIndex (j : Fin 64) : Fin 16 := ⟨j.val / 4, by omega⟩

def laneIndex (j : Fin 64) : Fin 4 := ⟨j.val % 4, by omega⟩

theorem byteAddr_wordIndex (j : Fin 64) : byteAddr (wordIndex j) (laneIndex j) = j := by
  ext; simp only [byteAddr, wordIndex, laneIndex]; omega

theorem readByte_byteAddr (x : Buffer) (k : Fin 16) (l : Fin 4) :
    readByte x (byteAddr k l) = wordByte (x.get k) l.val := by
  have hd : (4 * k.val + l.val) / 4 = k.val := by omega
  have hm : (4 * k.val + l.val) % 4 = l.val := by omega
  simp only [readByte, byteAddr, hd, hm]

/-- Word `k` of the buffer is the packing of its four bytes (20_memory.md R72). -/
theorem get_eq_unle32 (x : Buffer) (k : Fin 16) :
    x.get k = unle32 (readByte x (byteAddr k 0)) (readByte x (byteAddr k 1)) (readByte x (byteAddr k 2))
      (readByte x (byteAddr k 3)) := by
  simp only [readByte_byteAddr]
  exact (unle32_wordByte _).symm

theorem get_ofFn (f : Fin 16 → Word) (k : Fin 16) : (Vector.ofFn f).get k = f k := by
  show (Vector.ofFn f)[k.val] = f k
  rw [Vector.getElem_ofFn]

/-- A byte after a lane write: the byte written where the lane is enabled, the old byte elsewhere. -/
theorem readByte_writeLanes (x : Buffer) (lanes : Fin 64 → Option Byte) (j : Fin 64) :
    readByte (writeLanes x lanes) j = (lanes j).getD (readByte x j) := by
  conv_lhs => rw [← byteAddr_wordIndex j, readByte_byteAddr]
  rw [writeLanes, get_ofFn]
  rw [wordByte_unle32 fun l => (lanes (byteAddr (wordIndex j) l)).getD (readByte x (byteAddr (wordIndex j) l))]
  rw [byteAddr_wordIndex]

theorem readByte_memWriteByte (x : Buffer) (i : Fin 64) (v : Byte) (j : Fin 64) :
    readByte (memWriteByte x i v) j = if j = i then v else readByte x j := by
  rw [memWriteByte, readByte_writeLanes]
  split <;> simp [*]

@[simp] theorem readByte_memWriteByte_same (x : Buffer) (i : Fin 64) (v : Byte) :
    readByte (memWriteByte x i v) i = v := by
  simp [readByte_memWriteByte]

theorem readByte_memWriteByte_other (x : Buffer) {i j : Fin 64} (v : Byte) (h : j ≠ i) :
    readByte (memWriteByte x i v) j = readByte x j := by
  simp [readByte_memWriteByte, h]

/-- Two buffers with the same words are the same. -/
theorem buffer_ext_get {x y : Buffer} (h : ∀ k, x.get k = y.get k) : x = y := by
  apply Vector.ext
  intro i hi
  exact h ⟨i, hi⟩

/-- Two buffers with the same 64 bytes are the same: the buffer is held in one form. -/
theorem buffer_ext {x y : Buffer} (h : ∀ j, readByte x j = readByte y j) : x = y := by
  apply buffer_ext_get
  intro k
  rw [get_eq_unle32 x, get_eq_unle32 y]
  simp only [h]

/-- Word `k` after a lane write, by its four bytes. -/
theorem get_writeLanes (x : Buffer) (lanes : Fin 64 → Option Byte) (k : Fin 16) :
    (writeLanes x lanes).get k =
      unle32 ((lanes (byteAddr k 0)).getD (readByte x (byteAddr k 0)))
        ((lanes (byteAddr k 1)).getD (readByte x (byteAddr k 1)))
        ((lanes (byteAddr k 2)).getD (readByte x (byteAddr k 2)))
        ((lanes (byteAddr k 3)).getD (readByte x (byteAddr k 3))) := by
  rw [writeLanes, get_ofFn]

/-- A byte more moves the fill index to the next lane, around at 64 (10_state.md R38). -/
theorem fillIndex_add8 (len : BitVec 64) : (fillIndex (len + 8#64)).toNat = ((fillIndex len).toNat + 1) % 64 := by
  simp [fillIndex, BitVec.extractLsb'_toNat]
  omega

end Sys2Proof.Machine
end

