-- ==== Sys2Proof/Laws/Phase.lean ====
section
/-!
SUPPORT. The five phase codes are distinct (10_state.md R39), in the form simp uses.
-/

namespace Sys2Proof.Config

@[simp] theorem phAbsorb_eq_phComp : (phAbsorb = phComp) = False := by decide
@[simp] theorem phAbsorb_eq_phPadf : (phAbsorb = phPadf) = False := by decide
@[simp] theorem phAbsorb_eq_phPadl : (phAbsorb = phPadl) = False := by decide
@[simp] theorem phAbsorb_eq_phDone : (phAbsorb = phDone) = False := by decide
@[simp] theorem phComp_eq_phAbsorb : (phComp = phAbsorb) = False := by decide
@[simp] theorem phComp_eq_phPadf : (phComp = phPadf) = False := by decide
@[simp] theorem phComp_eq_phPadl : (phComp = phPadl) = False := by decide
@[simp] theorem phComp_eq_phDone : (phComp = phDone) = False := by decide
@[simp] theorem phPadf_eq_phAbsorb : (phPadf = phAbsorb) = False := by decide
@[simp] theorem phPadf_eq_phComp : (phPadf = phComp) = False := by decide
@[simp] theorem phPadf_eq_phPadl : (phPadf = phPadl) = False := by decide
@[simp] theorem phPadf_eq_phDone : (phPadf = phDone) = False := by decide
@[simp] theorem phPadl_eq_phAbsorb : (phPadl = phAbsorb) = False := by decide
@[simp] theorem phPadl_eq_phComp : (phPadl = phComp) = False := by decide
@[simp] theorem phPadl_eq_phPadf : (phPadl = phPadf) = False := by decide
@[simp] theorem phPadl_eq_phDone : (phPadl = phDone) = False := by decide
@[simp] theorem phDone_eq_phAbsorb : (phDone = phAbsorb) = False := by decide
@[simp] theorem phDone_eq_phComp : (phDone = phComp) = False := by decide
@[simp] theorem phDone_eq_phPadf : (phDone = phPadf) = False := by decide
@[simp] theorem phDone_eq_phPadl : (phDone = phPadl) = False := by decide
@[simp] theorem phAbsorb_toNat : phAbsorb.toNat = 0 := rfl
@[simp] theorem phComp_toNat : phComp.toNat = 1 := rfl
@[simp] theorem phPadf_toNat : phPadf.toNat = 2 := rfl
@[simp] theorem phPadl_toNat : phPadl.toNat = 3 := rfl
@[simp] theorem phDone_toNat : phDone.toNat = 4 := rfl

/-- A 3-bit value of at most 4 is one of the five phases. -/
theorem phase_cases {ph : BitVec 3} (h : ph.toNat ≤ 4) :
    ph = phAbsorb ∨ ph = phComp ∨ ph = phPadf ∨ ph = phPadl ∨ ph = phDone := by
  revert h; revert ph; decide

end Sys2Proof.Config
end

