-- ==== Sys2Proof/Laws/State.lean ====
section
/-!
SUPPORT. One lemma per field per named update of State, each true by unfolding, so that no later proof unfolds a record
update.
-/

namespace Sys2Proof.Machine

variable (s : State)

@[simp] theorem consumePins_A : (consumePins s).A = s.A := rfl
@[simp] theorem consumePins_B : (consumePins s).B = s.B := rfl
@[simp] theorem consumePins_C : (consumePins s).C = s.C := rfl
@[simp] theorem consumePins_D : (consumePins s).D = s.D := rfl
@[simp] theorem consumePins_a : (consumePins s).a = s.a := rfl
@[simp] theorem consumePins_b : (consumePins s).b = s.b := rfl
@[simp] theorem consumePins_c : (consumePins s).c = s.c := rfl
@[simp] theorem consumePins_d : (consumePins s).d = s.d := rfl
@[simp] theorem consumePins_X : (consumePins s).X = s.X := rfl
@[simp] theorem consumePins_LEN : (consumePins s).LEN = s.LEN := rfl
@[simp] theorem consumePins_PH : (consumePins s).PH = s.PH := rfl
@[simp] theorem consumePins_RET : (consumePins s).RET = s.RET := rfl
@[simp] theorem consumePins_STEP : (consumePins s).STEP = s.STEP := rfl
@[simp] theorem consumePins_ERR : (consumePins s).ERR = s.ERR := rfl
@[simp] theorem consumePins_inputs : (consumePins s).inputs = s.inputs.tail := rfl

@[simp] theorem raiseProtocolError_A : (raiseProtocolError s).A = s.A := rfl
@[simp] theorem raiseProtocolError_B : (raiseProtocolError s).B = s.B := rfl
@[simp] theorem raiseProtocolError_C : (raiseProtocolError s).C = s.C := rfl
@[simp] theorem raiseProtocolError_D : (raiseProtocolError s).D = s.D := rfl
@[simp] theorem raiseProtocolError_a : (raiseProtocolError s).a = s.a := rfl
@[simp] theorem raiseProtocolError_b : (raiseProtocolError s).b = s.b := rfl
@[simp] theorem raiseProtocolError_c : (raiseProtocolError s).c = s.c := rfl
@[simp] theorem raiseProtocolError_d : (raiseProtocolError s).d = s.d := rfl
@[simp] theorem raiseProtocolError_X : (raiseProtocolError s).X = s.X := rfl
@[simp] theorem raiseProtocolError_LEN : (raiseProtocolError s).LEN = s.LEN := rfl
@[simp] theorem raiseProtocolError_PH : (raiseProtocolError s).PH = s.PH := rfl
@[simp] theorem raiseProtocolError_RET : (raiseProtocolError s).RET = s.RET := rfl
@[simp] theorem raiseProtocolError_STEP : (raiseProtocolError s).STEP = s.STEP := rfl
@[simp] theorem raiseProtocolError_ERR : (raiseProtocolError s).ERR = true := rfl
@[simp] theorem raiseProtocolError_inputs : (raiseProtocolError s).inputs = s.inputs := rfl

@[simp] theorem enterCompression_A (r : BitVec 3) : (enterCompression r s).A = s.A := rfl
@[simp] theorem enterCompression_B (r : BitVec 3) : (enterCompression r s).B = s.B := rfl
@[simp] theorem enterCompression_C (r : BitVec 3) : (enterCompression r s).C = s.C := rfl
@[simp] theorem enterCompression_D (r : BitVec 3) : (enterCompression r s).D = s.D := rfl
@[simp] theorem enterCompression_a (r : BitVec 3) : (enterCompression r s).a = s.a := rfl
@[simp] theorem enterCompression_b (r : BitVec 3) : (enterCompression r s).b = s.b := rfl
@[simp] theorem enterCompression_c (r : BitVec 3) : (enterCompression r s).c = s.c := rfl
@[simp] theorem enterCompression_d (r : BitVec 3) : (enterCompression r s).d = s.d := rfl
@[simp] theorem enterCompression_X (r : BitVec 3) : (enterCompression r s).X = s.X := rfl
@[simp] theorem enterCompression_LEN (r : BitVec 3) : (enterCompression r s).LEN = s.LEN := rfl
@[simp] theorem enterCompression_PH (r : BitVec 3) : (enterCompression r s).PH = Config.phComp := rfl
@[simp] theorem enterCompression_RET (r : BitVec 3) : (enterCompression r s).RET = r := rfl
@[simp] theorem enterCompression_STEP (r : BitVec 3) : (enterCompression r s).STEP = 0#7 := rfl
@[simp] theorem enterCompression_ERR (r : BitVec 3) : (enterCompression r s).ERR = s.ERR := rfl
@[simp] theorem enterCompression_inputs (r : BitVec 3) : (enterCompression r s).inputs = s.inputs := rfl

@[simp] theorem resetEdge_A : (resetEdge s).A = ivA := rfl
@[simp] theorem resetEdge_B : (resetEdge s).B = ivB := rfl
@[simp] theorem resetEdge_C : (resetEdge s).C = ivC := rfl
@[simp] theorem resetEdge_D : (resetEdge s).D = ivD := rfl
@[simp] theorem resetEdge_a : (resetEdge s).a = s.a := rfl
@[simp] theorem resetEdge_b : (resetEdge s).b = s.b := rfl
@[simp] theorem resetEdge_c : (resetEdge s).c = s.c := rfl
@[simp] theorem resetEdge_d : (resetEdge s).d = s.d := rfl
@[simp] theorem resetEdge_X : (resetEdge s).X = s.X := rfl
@[simp] theorem resetEdge_LEN : (resetEdge s).LEN = 0#64 := rfl
@[simp] theorem resetEdge_PH : (resetEdge s).PH = Config.phAbsorb := rfl
@[simp] theorem resetEdge_RET : (resetEdge s).RET = Config.phAbsorb := rfl
@[simp] theorem resetEdge_STEP : (resetEdge s).STEP = 0#7 := rfl
@[simp] theorem resetEdge_ERR : (resetEdge s).ERR = false := rfl
@[simp] theorem resetEdge_inputs : (resetEdge s).inputs = s.inputs := rfl

@[simp] theorem startMessage_A : (startMessage s).A = ivA := rfl
@[simp] theorem startMessage_B : (startMessage s).B = ivB := rfl
@[simp] theorem startMessage_C : (startMessage s).C = ivC := rfl
@[simp] theorem startMessage_D : (startMessage s).D = ivD := rfl
@[simp] theorem startMessage_a : (startMessage s).a = s.a := rfl
@[simp] theorem startMessage_b : (startMessage s).b = s.b := rfl
@[simp] theorem startMessage_c : (startMessage s).c = s.c := rfl
@[simp] theorem startMessage_d : (startMessage s).d = s.d := rfl
@[simp] theorem startMessage_X : (startMessage s).X = s.X := rfl
@[simp] theorem startMessage_LEN : (startMessage s).LEN = 0#64 := rfl
@[simp] theorem startMessage_PH : (startMessage s).PH = Config.phAbsorb := rfl
@[simp] theorem startMessage_RET : (startMessage s).RET = s.RET := rfl
@[simp] theorem startMessage_STEP : (startMessage s).STEP = s.STEP := rfl
@[simp] theorem startMessage_ERR : (startMessage s).ERR = s.ERR := rfl
@[simp] theorem startMessage_inputs : (startMessage s).inputs = s.inputs := rfl

@[simp] theorem storeByte_A (v : Byte) : (storeByte v s).A = s.A := by unfold storeByte; rfl
@[simp] theorem storeByte_B (v : Byte) : (storeByte v s).B = s.B := by unfold storeByte; rfl
@[simp] theorem storeByte_C (v : Byte) : (storeByte v s).C = s.C := by unfold storeByte; rfl
@[simp] theorem storeByte_D (v : Byte) : (storeByte v s).D = s.D := by unfold storeByte; rfl
@[simp] theorem storeByte_a (v : Byte) : (storeByte v s).a = s.a := by unfold storeByte; rfl
@[simp] theorem storeByte_b (v : Byte) : (storeByte v s).b = s.b := by unfold storeByte; rfl
@[simp] theorem storeByte_c (v : Byte) : (storeByte v s).c = s.c := by unfold storeByte; rfl
@[simp] theorem storeByte_d (v : Byte) : (storeByte v s).d = s.d := by unfold storeByte; rfl
@[simp] theorem storeByte_X (v : Byte) : (storeByte v s).X = memWriteByte s.X (fillAddr s.LEN) v := by unfold storeByte; rfl
@[simp] theorem storeByte_LEN (v : Byte) : (storeByte v s).LEN = s.LEN + 8#64 := by unfold storeByte; rfl
@[simp] theorem storeByte_PH (v : Byte) : (storeByte v s).PH = s.PH := by unfold storeByte; rfl
@[simp] theorem storeByte_RET (v : Byte) : (storeByte v s).RET = s.RET := by unfold storeByte; rfl
@[simp] theorem storeByte_STEP (v : Byte) : (storeByte v s).STEP = s.STEP := by unfold storeByte; rfl
@[simp] theorem storeByte_ERR (v : Byte) : (storeByte v s).ERR = s.ERR := by unfold storeByte; rfl
@[simp] theorem storeByte_inputs (v : Byte) : (storeByte v s).inputs = s.inputs := by unfold storeByte; rfl

@[simp] theorem closeMessage_A : (closeMessage s).A = s.A := rfl
@[simp] theorem closeMessage_B : (closeMessage s).B = s.B := rfl
@[simp] theorem closeMessage_C : (closeMessage s).C = s.C := rfl
@[simp] theorem closeMessage_D : (closeMessage s).D = s.D := rfl
@[simp] theorem closeMessage_a : (closeMessage s).a = s.a := rfl
@[simp] theorem closeMessage_b : (closeMessage s).b = s.b := rfl
@[simp] theorem closeMessage_c : (closeMessage s).c = s.c := rfl
@[simp] theorem closeMessage_d : (closeMessage s).d = s.d := rfl
@[simp] theorem closeMessage_X : (closeMessage s).X = s.X := rfl
@[simp] theorem closeMessage_LEN : (closeMessage s).LEN = s.LEN := rfl
@[simp] theorem closeMessage_PH : (closeMessage s).PH = Config.phPadf := rfl
@[simp] theorem closeMessage_RET : (closeMessage s).RET = s.RET := rfl
@[simp] theorem closeMessage_STEP : (closeMessage s).STEP = s.STEP := rfl
@[simp] theorem closeMessage_ERR : (closeMessage s).ERR = s.ERR := rfl
@[simp] theorem closeMessage_inputs : (closeMessage s).inputs = s.inputs := rfl

@[simp] theorem formatFirst_A : (formatFirst s).A = s.A := by unfold formatFirst enterCompression; rfl
@[simp] theorem formatFirst_B : (formatFirst s).B = s.B := by unfold formatFirst enterCompression; rfl
@[simp] theorem formatFirst_C : (formatFirst s).C = s.C := by unfold formatFirst enterCompression; rfl
@[simp] theorem formatFirst_D : (formatFirst s).D = s.D := by unfold formatFirst enterCompression; rfl
@[simp] theorem formatFirst_a : (formatFirst s).a = s.a := by unfold formatFirst enterCompression; rfl
@[simp] theorem formatFirst_b : (formatFirst s).b = s.b := by unfold formatFirst enterCompression; rfl
@[simp] theorem formatFirst_c : (formatFirst s).c = s.c := by unfold formatFirst enterCompression; rfl
@[simp] theorem formatFirst_d : (formatFirst s).d = s.d := by unfold formatFirst enterCompression; rfl
@[simp] theorem formatFirst_X : (formatFirst s).X = writeLanes s.X (padfLanes s.LEN) := by unfold formatFirst enterCompression; rfl
@[simp] theorem formatFirst_LEN : (formatFirst s).LEN = s.LEN := by unfold formatFirst enterCompression; rfl
@[simp] theorem formatFirst_PH : (formatFirst s).PH = Config.phComp := by unfold formatFirst enterCompression; rfl
@[simp] theorem formatFirst_RET : (formatFirst s).RET = if lengthFits s.LEN then Config.phDone else Config.phPadl := by unfold formatFirst enterCompression; rfl
@[simp] theorem formatFirst_STEP : (formatFirst s).STEP = 0#7 := by unfold formatFirst enterCompression; rfl
@[simp] theorem formatFirst_ERR : (formatFirst s).ERR = s.ERR := by unfold formatFirst enterCompression; rfl
@[simp] theorem formatFirst_inputs : (formatFirst s).inputs = s.inputs := by unfold formatFirst enterCompression; rfl

@[simp] theorem formatLast_A : (formatLast s).A = s.A := by unfold formatLast enterCompression; rfl
@[simp] theorem formatLast_B : (formatLast s).B = s.B := by unfold formatLast enterCompression; rfl
@[simp] theorem formatLast_C : (formatLast s).C = s.C := by unfold formatLast enterCompression; rfl
@[simp] theorem formatLast_D : (formatLast s).D = s.D := by unfold formatLast enterCompression; rfl
@[simp] theorem formatLast_a : (formatLast s).a = s.a := by unfold formatLast enterCompression; rfl
@[simp] theorem formatLast_b : (formatLast s).b = s.b := by unfold formatLast enterCompression; rfl
@[simp] theorem formatLast_c : (formatLast s).c = s.c := by unfold formatLast enterCompression; rfl
@[simp] theorem formatLast_d : (formatLast s).d = s.d := by unfold formatLast enterCompression; rfl
@[simp] theorem formatLast_X : (formatLast s).X = writeLanes s.X (padlLanes s.LEN) := by unfold formatLast enterCompression; rfl
@[simp] theorem formatLast_LEN : (formatLast s).LEN = s.LEN := by unfold formatLast enterCompression; rfl
@[simp] theorem formatLast_PH : (formatLast s).PH = Config.phComp := by unfold formatLast enterCompression; rfl
@[simp] theorem formatLast_RET : (formatLast s).RET = Config.phDone := by unfold formatLast enterCompression; rfl
@[simp] theorem formatLast_STEP : (formatLast s).STEP = 0#7 := by unfold formatLast enterCompression; rfl
@[simp] theorem formatLast_ERR : (formatLast s).ERR = s.ERR := by unfold formatLast enterCompression; rfl
@[simp] theorem formatLast_inputs : (formatLast s).inputs = s.inputs := by unfold formatLast enterCompression; rfl

@[simp] theorem loadWorking_A : (loadWorking s).A = s.A := rfl
@[simp] theorem loadWorking_B : (loadWorking s).B = s.B := rfl
@[simp] theorem loadWorking_C : (loadWorking s).C = s.C := rfl
@[simp] theorem loadWorking_D : (loadWorking s).D = s.D := rfl
@[simp] theorem loadWorking_a : (loadWorking s).a = s.A := rfl
@[simp] theorem loadWorking_b : (loadWorking s).b = s.B := rfl
@[simp] theorem loadWorking_c : (loadWorking s).c = s.C := rfl
@[simp] theorem loadWorking_d : (loadWorking s).d = s.D := rfl
@[simp] theorem loadWorking_X : (loadWorking s).X = s.X := rfl
@[simp] theorem loadWorking_LEN : (loadWorking s).LEN = s.LEN := rfl
@[simp] theorem loadWorking_PH : (loadWorking s).PH = s.PH := rfl
@[simp] theorem loadWorking_RET : (loadWorking s).RET = s.RET := rfl
@[simp] theorem loadWorking_STEP : (loadWorking s).STEP = 1#7 := rfl
@[simp] theorem loadWorking_ERR : (loadWorking s).ERR = s.ERR := rfl
@[simp] theorem loadWorking_inputs : (loadWorking s).inputs = s.inputs := rfl

@[simp] theorem addBackReturn_A : (addBackReturn s).A = add32 s.A s.a := rfl
@[simp] theorem addBackReturn_B : (addBackReturn s).B = add32 s.B s.b := rfl
@[simp] theorem addBackReturn_C : (addBackReturn s).C = add32 s.C s.c := rfl
@[simp] theorem addBackReturn_D : (addBackReturn s).D = add32 s.D s.d := rfl
@[simp] theorem addBackReturn_a : (addBackReturn s).a = s.a := rfl
@[simp] theorem addBackReturn_b : (addBackReturn s).b = s.b := rfl
@[simp] theorem addBackReturn_c : (addBackReturn s).c = s.c := rfl
@[simp] theorem addBackReturn_d : (addBackReturn s).d = s.d := rfl
@[simp] theorem addBackReturn_X : (addBackReturn s).X = s.X := rfl
@[simp] theorem addBackReturn_LEN : (addBackReturn s).LEN = s.LEN := rfl
@[simp] theorem addBackReturn_PH : (addBackReturn s).PH = s.RET := rfl
@[simp] theorem addBackReturn_RET : (addBackReturn s).RET = s.RET := rfl
@[simp] theorem addBackReturn_STEP : (addBackReturn s).STEP = 0#7 := rfl
@[simp] theorem addBackReturn_ERR : (addBackReturn s).ERR = s.ERR := rfl
@[simp] theorem addBackReturn_inputs : (addBackReturn s).inputs = s.inputs := rfl

/-! `sequencerStep` writes `STEP` and one working register; `dstOf` says which. -/

@[simp] theorem sequencerStep_A (e : Fin 64) : (sequencerStep e s).A = s.A := by
  unfold sequencerStep; cases dstOf e <;> rfl
@[simp] theorem sequencerStep_B (e : Fin 64) : (sequencerStep e s).B = s.B := by
  unfold sequencerStep; cases dstOf e <;> rfl
@[simp] theorem sequencerStep_C (e : Fin 64) : (sequencerStep e s).C = s.C := by
  unfold sequencerStep; cases dstOf e <;> rfl
@[simp] theorem sequencerStep_D (e : Fin 64) : (sequencerStep e s).D = s.D := by
  unfold sequencerStep; cases dstOf e <;> rfl
@[simp] theorem sequencerStep_X (e : Fin 64) : (sequencerStep e s).X = s.X := by
  unfold sequencerStep; cases dstOf e <;> rfl
@[simp] theorem sequencerStep_LEN (e : Fin 64) : (sequencerStep e s).LEN = s.LEN := by
  unfold sequencerStep; cases dstOf e <;> rfl
@[simp] theorem sequencerStep_PH (e : Fin 64) : (sequencerStep e s).PH = s.PH := by
  unfold sequencerStep; cases dstOf e <;> rfl
@[simp] theorem sequencerStep_RET (e : Fin 64) : (sequencerStep e s).RET = s.RET := by
  unfold sequencerStep; cases dstOf e <;> rfl
@[simp] theorem sequencerStep_STEP (e : Fin 64) : (sequencerStep e s).STEP = BitVec.ofNat 7 (e.val + 2) := by
  unfold sequencerStep; cases dstOf e <;> rfl
@[simp] theorem sequencerStep_ERR (e : Fin 64) : (sequencerStep e s).ERR = s.ERR := by
  unfold sequencerStep; cases dstOf e <;> rfl
@[simp] theorem sequencerStep_inputs (e : Fin 64) : (sequencerStep e s).inputs = s.inputs := by
  unfold sequencerStep; cases dstOf e <;> rfl

/-! `absorbByte` is `storeByte`, and the call of the compression when the buffer is full. -/

theorem absorbByte_of_not_full (v : Byte) (h : fillsBuffer s.LEN = false) : absorbByte v s = storeByte v s := by
  simp [absorbByte, h]

theorem absorbByte_of_full (v : Byte) (h : fillsBuffer s.LEN = true) :
    absorbByte v s = enterCompression Config.phAbsorb (storeByte v s) := by
  simp [absorbByte, h]

@[simp] theorem absorbByte_A (v : Byte) : (absorbByte v s).A = s.A := by
  unfold absorbByte; split <;> simp
@[simp] theorem absorbByte_B (v : Byte) : (absorbByte v s).B = s.B := by
  unfold absorbByte; split <;> simp
@[simp] theorem absorbByte_C (v : Byte) : (absorbByte v s).C = s.C := by
  unfold absorbByte; split <;> simp
@[simp] theorem absorbByte_D (v : Byte) : (absorbByte v s).D = s.D := by
  unfold absorbByte; split <;> simp
@[simp] theorem absorbByte_a (v : Byte) : (absorbByte v s).a = s.a := by
  unfold absorbByte; split <;> simp
@[simp] theorem absorbByte_b (v : Byte) : (absorbByte v s).b = s.b := by
  unfold absorbByte; split <;> simp
@[simp] theorem absorbByte_c (v : Byte) : (absorbByte v s).c = s.c := by
  unfold absorbByte; split <;> simp
@[simp] theorem absorbByte_d (v : Byte) : (absorbByte v s).d = s.d := by
  unfold absorbByte; split <;> simp
@[simp] theorem absorbByte_X (v : Byte) : (absorbByte v s).X = memWriteByte s.X (fillAddr s.LEN) v := by
  unfold absorbByte; split <;> simp
@[simp] theorem absorbByte_LEN (v : Byte) : (absorbByte v s).LEN = s.LEN + 8#64 := by
  unfold absorbByte; split <;> simp
@[simp] theorem absorbByte_ERR (v : Byte) : (absorbByte v s).ERR = s.ERR := by
  unfold absorbByte; split <;> simp
@[simp] theorem absorbByte_inputs (v : Byte) : (absorbByte v s).inputs = s.inputs := by
  unfold absorbByte; split <;> simp

/-! The reset state, field by field. -/

@[simp] theorem reset_A : State.reset.A = ivA := rfl
@[simp] theorem reset_B : State.reset.B = ivB := rfl
@[simp] theorem reset_C : State.reset.C = ivC := rfl
@[simp] theorem reset_D : State.reset.D = ivD := rfl
@[simp] theorem reset_LEN : State.reset.LEN = 0#64 := rfl
@[simp] theorem reset_PH : State.reset.PH = Config.phAbsorb := rfl
@[simp] theorem reset_RET : State.reset.RET = Config.phAbsorb := rfl
@[simp] theorem reset_STEP : State.reset.STEP = 0#7 := rfl
@[simp] theorem reset_ERR : State.reset.ERR = false := rfl
@[simp] theorem reset_inputs : State.reset.inputs = [] := rfl

end Sys2Proof.Machine
end

