-- ==== Sys2Proof/Laws/Exec.lean ====
section
/-!
SUPPORT. Which instructions there are (the four commands, the two padding operations, LOAD, ADDBACK, and the step of some ROM
entry), what each one's meaning answers, and what the decoder gives for a selection.
-/

namespace Sys2Proof

theorem mem_stepInstrs_get (i : Instr) (h : i ∈ stepInstrs) : ∃ e, i = stepInstr e := by
  obtain ⟨n, hn⟩ := List.mem_iff_get.mp h
  exact ⟨n.cast stepInstrs_length, by rw [← hn]; rfl⟩

/-- Every instruction is one of the nine shapes; `stepInstr e` is `STEP (e + 1)`. -/
theorem instr_cases (i : Instr) :
    i = .init ∨ (∃ v, i = .data v) ∨ i = .final ∨ i = .rsvd ∨ i = .padf ∨ i = .padl ∨ i = .load ∨
      i = .addback ∨ ∃ e, i = stepInstr e := by
  by_cases h : i ∈ stepInstrs
  · have := mem_stepInstrs_get i h; tauto
  · revert h
    cases i <;> simp [stepInstrs, stepsOfRound1, stepsOfRound2, stepsOfRound3, stepsOfRound4]

@[simp] theorem selectorPhase_selectorWord (ph : BitVec 3) (st : BitVec 7) :
    selectorPhase (selectorWord ph st) = ph := by
  simp only [selectorPhase, selectorWord, BitVec.extractLsb'_append_eq_left]

@[simp] theorem selectorStep_selectorWord (ph : BitVec 3) (st : BitVec 7) :
    selectorStep (selectorWord ph st) = st := by
  simp only [selectorStep, selectorWord, BitVec.extractLsb'_append_eq_right]

theorem decodeSelector_padf : decodeSelector (selectorWord Config.phPadf 0#7) = .ok .padf := by decide

theorem decodeSelector_padl : decodeSelector (selectorWord Config.phPadl 0#7) = .ok .padl := by decide

theorem decodeSelector_comp (st : BitVec 7) :
    decodeSelector (selectorWord Config.phComp st) = compOperation st.toNat := by
  simp [decodeSelector]

theorem compOperation_step (e : Fin 64) : compOperation (e.val + 1) = .ok (stepInstr e) := by
  have h0 : e.val + 1 ≠ 65 := by omega
  simp [compOperation, h0]

namespace Machine

variable (s : State)

theorem exec_init : exec .init s = .next (commandByPhase startMessage startMessage s) := rfl

theorem exec_data (v : Byte) : exec (.data v) s = .next (commandByPhase (absorbByte v) raiseProtocolError s) := rfl

theorem exec_final : exec .final s = .next (commandByPhase closeMessage raiseProtocolError s) := rfl

theorem exec_rsvd : exec .rsvd s = .next (commandByPhase raiseProtocolError raiseProtocolError s) := rfl

theorem exec_padf : exec .padf s = .next (formatFirst s) := rfl

theorem exec_padl : exec .padl s = .next (formatLast s) := rfl

theorem exec_load : exec .load s = .next (loadWorking s) := rfl

theorem exec_addback : exec .addback s = .next (addBackReturn s) := rfl

/-- The 64 steps are one operation over the ROM entries. -/
theorem exec_stepInstr (e : Fin 64) : exec (stepInstr e) s = .next (sequencerStep e s) := by
  fin_cases e <;> rfl

theorem commandByPhase_absorb {s : State} {f g : State → State} (h : s.PH = Config.phAbsorb) : commandByPhase f g s = f s := by
  simp [commandByPhase, h]

theorem commandByPhase_done {s : State} {f g : State → State} (h : s.PH = Config.phDone) : commandByPhase f g s = g s := by
  have hd : s.PH ≠ Config.phAbsorb := by rw [h]; decide
  rw [commandByPhase, if_neg hd, if_pos h]

/-- In a phase in which the port is not ready a command has no effect. -/
theorem commandByPhase_notReady {s : State} {f g : State → State} (h : cmdReady s = false) : commandByPhase f g s = s := by
  simp only [cmdReady, Bool.or_eq_false_iff, beq_eq_false_iff_ne, ne_eq] at h
  simp [commandByPhase, h.1, h.2]

/-- What a meaning can answer, instruction by instruction: always a next state. -/
theorem exec_cases {i : Instr} {t : State} (h : exec i s = .next t) :
    (i = .init ∧ t = commandByPhase startMessage startMessage s) ∨
    (∃ v, i = .data v ∧ t = commandByPhase (absorbByte v) raiseProtocolError s) ∨
    (i = .final ∧ t = commandByPhase closeMessage raiseProtocolError s) ∨
    (i = .rsvd ∧ t = commandByPhase raiseProtocolError raiseProtocolError s) ∨
    (i = .padf ∧ t = formatFirst s) ∨ (i = .padl ∧ t = formatLast s) ∨ (i = .load ∧ t = loadWorking s) ∨
    (i = .addback ∧ t = addBackReturn s) ∨ ∃ e, i = stepInstr e ∧ t = sequencerStep e s := by
  rcases instr_cases i with rfl | ⟨v, rfl⟩ | rfl | rfl | rfl | rfl | rfl | rfl | ⟨e, rfl⟩
  · rw [exec_init] at h
    exact .inl ⟨rfl, (Host.Outcome.next.inj h).symm⟩
  · rw [exec_data] at h
    exact .inr (.inl ⟨v, rfl, (Host.Outcome.next.inj h).symm⟩)
  · rw [exec_final] at h
    exact .inr (.inr (.inl ⟨rfl, (Host.Outcome.next.inj h).symm⟩))
  · rw [exec_rsvd] at h
    exact .inr (.inr (.inr (.inl ⟨rfl, (Host.Outcome.next.inj h).symm⟩)))
  · rw [exec_padf] at h
    exact .inr (.inr (.inr (.inr (.inl ⟨rfl, (Host.Outcome.next.inj h).symm⟩))))
  · rw [exec_padl] at h
    exact .inr (.inr (.inr (.inr (.inr (.inl ⟨rfl, (Host.Outcome.next.inj h).symm⟩)))))
  · rw [exec_load] at h
    exact .inr (.inr (.inr (.inr (.inr (.inr (.inl ⟨rfl, (Host.Outcome.next.inj h).symm⟩))))))
  · rw [exec_addback] at h
    exact .inr (.inr (.inr (.inr (.inr (.inr (.inr (.inl ⟨rfl, (Host.Outcome.next.inj h).symm⟩)))))))
  · rw [exec_stepInstr] at h
    exact .inr (.inr (.inr (.inr (.inr (.inr (.inr (.inr (⟨e, rfl, (Host.Outcome.next.inj h).symm⟩))))))))

/-- A meaning neither faults nor refuses. -/
theorem exec_next (i : Instr) : ∃ t, exec i s = .next t := by
  rcases instr_cases i with rfl | ⟨v, rfl⟩ | rfl | rfl | rfl | rfl | rfl | rfl | ⟨e, rfl⟩
  · exact ⟨_, exec_init s⟩
  · exact ⟨_, exec_data s v⟩
  · exact ⟨_, exec_final s⟩
  · exact ⟨_, exec_rsvd s⟩
  · exact ⟨_, exec_padf s⟩
  · exact ⟨_, exec_padl s⟩
  · exact ⟨_, exec_load s⟩
  · exact ⟨_, exec_addback s⟩
  · exact ⟨_, exec_stepInstr s e⟩

/-- No meaning touches the inputs, and none clears `ERR` (60_exceptions.md R373). -/
theorem exec_inputs {i : Instr} {t : State} (h : exec i s = .next t) :
    t.inputs = s.inputs ∧ (s.ERR = true → t.ERR = true) := by
  rcases exec_cases s h with ⟨rfl, rfl⟩ | ⟨v, rfl, rfl⟩ | ⟨rfl, rfl⟩ | ⟨rfl, rfl⟩ | ⟨rfl, rfl⟩ | ⟨rfl, rfl⟩ | ⟨rfl, rfl⟩ |
    ⟨rfl, rfl⟩ | ⟨e, rfl, rfl⟩
  any_goals (simp only [commandByPhase]; repeat' split) <;> simp
  all_goals simp

end Machine

end Sys2Proof
end

