-- ==== Sys2Proof/Laws/Chain.lean ====
section
/-!
SUPPORT. The chaining and the working registers, as four words, after each named update.
-/

namespace Sys2Proof.Machine

variable (s : State)

@[simp] theorem chainOf_consumePins : chainOf (consumePins s) = chainOf s := by
  simp [chainOf]
@[simp] theorem chainOf_raiseProtocolError : chainOf (raiseProtocolError s) = chainOf s := by
  simp [chainOf]
@[simp] theorem chainOf_enterCompression (r : BitVec 3) : chainOf (enterCompression r s) = chainOf s := by
  simp [chainOf]
@[simp] theorem chainOf_resetEdge : chainOf (resetEdge s) = iv := by
  simp [chainOf, iv]
@[simp] theorem chainOf_startMessage : chainOf (startMessage s) = iv := by
  simp [chainOf, iv]
@[simp] theorem chainOf_storeByte (v : Byte) : chainOf (storeByte v s) = chainOf s := by
  simp [chainOf]
@[simp] theorem chainOf_absorbByte (v : Byte) : chainOf (absorbByte v s) = chainOf s := by
  simp [chainOf]
@[simp] theorem chainOf_closeMessage : chainOf (closeMessage s) = chainOf s := by
  simp [chainOf]
@[simp] theorem chainOf_formatFirst : chainOf (formatFirst s) = chainOf s := by
  simp [chainOf]
@[simp] theorem chainOf_formatLast : chainOf (formatLast s) = chainOf s := by
  simp [chainOf]
@[simp] theorem chainOf_loadWorking : chainOf (loadWorking s) = chainOf s := by
  simp [chainOf]
@[simp] theorem chainOf_sequencerStep (e : Fin 64) : chainOf (sequencerStep e s) = chainOf s := by
  simp [chainOf]
@[simp] theorem chainOf_addBackReturn : chainOf (addBackReturn s) = addChain (chainOf s) (workingOf s) := by
  simp [chainOf, workingOf, addChain]

@[simp] theorem workingOf_consumePins : workingOf (consumePins s) = workingOf s := by
  simp [workingOf]
@[simp] theorem workingOf_raiseProtocolError : workingOf (raiseProtocolError s) = workingOf s := by
  simp [workingOf]
@[simp] theorem workingOf_enterCompression (r : BitVec 3) : workingOf (enterCompression r s) = workingOf s := by
  simp [workingOf]
@[simp] theorem workingOf_resetEdge : workingOf (resetEdge s) = workingOf s := by
  simp [workingOf]
@[simp] theorem workingOf_startMessage : workingOf (startMessage s) = workingOf s := by
  simp [workingOf]
@[simp] theorem workingOf_storeByte (v : Byte) : workingOf (storeByte v s) = workingOf s := by
  simp [workingOf]
@[simp] theorem workingOf_absorbByte (v : Byte) : workingOf (absorbByte v s) = workingOf s := by
  simp [workingOf]
@[simp] theorem workingOf_closeMessage : workingOf (closeMessage s) = workingOf s := by
  simp [workingOf]
@[simp] theorem workingOf_formatFirst : workingOf (formatFirst s) = workingOf s := by
  simp [workingOf]
@[simp] theorem workingOf_formatLast : workingOf (formatLast s) = workingOf s := by
  simp [workingOf]
@[simp] theorem workingOf_loadWorking : workingOf (loadWorking s) = chainOf s := by
  simp [workingOf, chainOf]
@[simp] theorem workingOf_addBackReturn : workingOf (addBackReturn s) = workingOf s := by
  simp [workingOf]

/-- The working registers after a step are one turn of the loop of `compress` (R260). -/
@[simp] theorem workingOf_sequencerStep (e : Fin 64) :
    workingOf (sequencerStep e s) = compressStep s.X (workingOf s) e := by
  unfold sequencerStep compressStep
  cases dstOf e <;> rfl

/-- The first `n + 1` ROM entries are the first `n` and entry `n`: a run of the steps grows at its end. -/
theorem take_finRange_succ (n : Nat) (h : n < 64) :
    (List.finRange 64).take (n + 1) = (List.finRange 64).take n ++ [⟨n, h⟩] := by
  rw [List.take_add_one]
  simp [h]

end Sys2Proof.Machine
end

