-- ==== Sys2Proof/Laws/PerInstr.lean ====
section
/-!
SUPPORT. Statements about instructions as syntax, one lemma per constructor. EncodesWellFormed: the encoder gives a
well-formed fetched form (for a micro-operation, a selection that is a row of 30_encoding.md R107).
-/

namespace Sys2Proof.Laws.EncodesWellFormed

/-- The encoded form of the instruction is well formed. -/
def Statement (i : Instr) : Prop := (encode i).wellFormed = true

theorem init : Statement .init := rfl
theorem data (v : Byte) : Statement (.data v) := rfl
theorem final : Statement .final := rfl
theorem rsvd : Statement .rsvd := rfl
theorem padf : Statement .padf := rfl
theorem padl : Statement .padl := rfl
theorem load : Statement .load := rfl
theorem step1 : Statement .step1 := rfl
theorem step2 : Statement .step2 := rfl
theorem step3 : Statement .step3 := rfl
theorem step4 : Statement .step4 := rfl
theorem step5 : Statement .step5 := rfl
theorem step6 : Statement .step6 := rfl
theorem step7 : Statement .step7 := rfl
theorem step8 : Statement .step8 := rfl
theorem step9 : Statement .step9 := rfl
theorem step10 : Statement .step10 := rfl
theorem step11 : Statement .step11 := rfl
theorem step12 : Statement .step12 := rfl
theorem step13 : Statement .step13 := rfl
theorem step14 : Statement .step14 := rfl
theorem step15 : Statement .step15 := rfl
theorem step16 : Statement .step16 := rfl
theorem step17 : Statement .step17 := rfl
theorem step18 : Statement .step18 := rfl
theorem step19 : Statement .step19 := rfl
theorem step20 : Statement .step20 := rfl
theorem step21 : Statement .step21 := rfl
theorem step22 : Statement .step22 := rfl
theorem step23 : Statement .step23 := rfl
theorem step24 : Statement .step24 := rfl
theorem step25 : Statement .step25 := rfl
theorem step26 : Statement .step26 := rfl
theorem step27 : Statement .step27 := rfl
theorem step28 : Statement .step28 := rfl
theorem step29 : Statement .step29 := rfl
theorem step30 : Statement .step30 := rfl
theorem step31 : Statement .step31 := rfl
theorem step32 : Statement .step32 := rfl
theorem step33 : Statement .step33 := rfl
theorem step34 : Statement .step34 := rfl
theorem step35 : Statement .step35 := rfl
theorem step36 : Statement .step36 := rfl
theorem step37 : Statement .step37 := rfl
theorem step38 : Statement .step38 := rfl
theorem step39 : Statement .step39 := rfl
theorem step40 : Statement .step40 := rfl
theorem step41 : Statement .step41 := rfl
theorem step42 : Statement .step42 := rfl
theorem step43 : Statement .step43 := rfl
theorem step44 : Statement .step44 := rfl
theorem step45 : Statement .step45 := rfl
theorem step46 : Statement .step46 := rfl
theorem step47 : Statement .step47 := rfl
theorem step48 : Statement .step48 := rfl
theorem step49 : Statement .step49 := rfl
theorem step50 : Statement .step50 := rfl
theorem step51 : Statement .step51 := rfl
theorem step52 : Statement .step52 := rfl
theorem step53 : Statement .step53 := rfl
theorem step54 : Statement .step54 := rfl
theorem step55 : Statement .step55 := rfl
theorem step56 : Statement .step56 := rfl
theorem step57 : Statement .step57 := rfl
theorem step58 : Statement .step58 := rfl
theorem step59 : Statement .step59 := rfl
theorem step60 : Statement .step60 := rfl
theorem step61 : Statement .step61 := rfl
theorem step62 : Statement .step62 := rfl
theorem step63 : Statement .step63 := rfl
theorem step64 : Statement .step64 := rfl
theorem addback : Statement .addback := rfl

end Sys2Proof.Laws.EncodesWellFormed
end

