-- ==== Sys2Proof/Laws/Step.lean ====
section
/-!
SUPPORT. What one edge does, said once: by the event (step_cases), and for each row of the control unit (step_reset, step_idle,
step_command, step_padf, step_padl, step_load, step_stepInstr, step_addback); and how runs compose.
-/

namespace Sys2Proof.Machine

variable {s t : State}

theorem controlFault_eq_none : controlFault s = none ↔
    s.PH.toNat ≤ 4 ∧ stepInPhase s.PH s.STEP = true ∧ (s.PH = Config.phComp → returnLegal s.RET = true) := by
  unfold controlFault
  split
  · simp; omega
  · split
    · simp_all
    · split <;> simp_all; omega

/-- The invariant rules out the control values that have no row. -/
theorem ControlInv.controlFault (h : ControlInv s) : controlFault s = none :=
  controlFault_eq_none.mpr ⟨h.1, h.2.2, fun _ => h.2.1⟩

theorem step_reset (h : (nextPins s).rst = true) : step s = .next (resetEdge (consumePins s)) := by
  simp [step, dueEvent, h]

theorem step_stuck {r : Fault} (h : (nextPins s).rst = false) (hf : controlFault s = some r) : step s = .fault r := by
  simp [step, dueEvent, h, hf]

theorem step_idle (h : (nextPins s).rst = false) (hf : controlFault s = none) (hr : cmdReady s = true)
    (hv : (nextPins s).cmdValid = false) : step s = .next (consumePins s) := by
  simp [step, dueEvent, h, hf, hr, hv]

theorem step_command (h : (nextPins s).rst = false) (hf : controlFault s = none) (hr : cmdReady s = true)
    (hv : (nextPins s).cmdValid = true) : step s = exec (decodeCommand (nextPins s).cmd) (consumePins s) := by
  simp [step, dueEvent, h, hf, hr, hv, decode]

theorem step_micro {i : Instr} (h : (nextPins s).rst = false) (hf : controlFault s = none) (hr : cmdReady s = false)
    (hd : decodeSelector (selectorWord s.PH s.STEP) = .ok i) : step s = exec i (consumePins s) := by
  simp [step, dueEvent, h, hf, hr, decode, hd]

theorem step_padf (h : (nextPins s).rst = false) (hp : s.PH = Config.phPadf) (h0 : s.STEP = 0#7) :
    step s = .next (formatFirst (consumePins s)) := by
  rw [← exec_padf]
  refine step_micro h (controlFault_eq_none.mpr ?_) (by simp [cmdReady, hp]) ?_
  · simp [hp, h0, stepInPhase]
  · rw [hp, h0]; exact decodeSelector_padf

theorem step_padl (h : (nextPins s).rst = false) (hp : s.PH = Config.phPadl) (h0 : s.STEP = 0#7) :
    step s = .next (formatLast (consumePins s)) := by
  rw [← exec_padl]
  refine step_micro h (controlFault_eq_none.mpr ?_) (by simp [cmdReady, hp]) ?_
  · simp [hp, h0, stepInPhase]
  · rw [hp, h0]; exact decodeSelector_padl

theorem controlFault_comp (hp : s.PH = Config.phComp) (hr : returnLegal s.RET = true) (h : s.STEP.toNat ≤ 65) :
    controlFault s = none := by
  rw [controlFault_eq_none, hp]
  exact ⟨by decide, by simpa [stepInPhase] using h, fun _ => hr⟩

theorem step_load (h : (nextPins s).rst = false) (hp : s.PH = Config.phComp) (hr : returnLegal s.RET = true)
    (h0 : s.STEP = 0#7) : step s = .next (loadWorking (consumePins s)) := by
  rw [← exec_load]
  refine step_micro h (controlFault_comp hp hr (by simp [h0])) (by simp [cmdReady, hp]) ?_
  rw [hp, h0]; decide

theorem step_stepInstr (h : (nextPins s).rst = false) (hp : s.PH = Config.phComp) (hr : returnLegal s.RET = true)
    (e : Fin 64) (he : s.STEP.toNat = e.val + 1) : step s = .next (sequencerStep e (consumePins s)) := by
  rw [← exec_stepInstr]
  refine step_micro h (controlFault_comp hp hr (by omega)) (by simp [cmdReady, hp]) ?_
  rw [hp, decodeSelector_comp, he, compOperation_step]

theorem step_addback (h : (nextPins s).rst = false) (hp : s.PH = Config.phComp) (hr : returnLegal s.RET = true)
    (h0 : s.STEP = 65#7) : step s = .next (addBackReturn (consumePins s)) := by
  rw [← exec_addback]
  refine step_micro h (controlFault_comp hp hr (by simp [h0])) (by simp [cmdReady, hp]) ?_
  rw [hp, h0]; decide

/-- The five places a state with legal control can be in: a ready phase, or one of the micro-operations. -/
theorem ControlInv.place (h : ControlInv s) :
    ((s.PH = Config.phAbsorb ∨ s.PH = Config.phDone) ∧ s.STEP = 0#7) ∨ (s.PH = Config.phPadf ∧ s.STEP = 0#7) ∨
      (s.PH = Config.phPadl ∧ s.STEP = 0#7) ∨ (s.PH = Config.phComp ∧ s.STEP = 0#7) ∨
      (s.PH = Config.phComp ∧ ∃ e : Fin 64, s.STEP.toNat = e.val + 1) ∨ (s.PH = Config.phComp ∧ s.STEP = 65#7) := by
  obtain ⟨hp, -, hs⟩ := h
  unfold stepInPhase at hs
  rcases Config.phase_cases hp with hp | hp | hp | hp | hp <;> simp only [hp] at hs ⊢ <;> simp at hs ⊢
  · exact hs
  · by_cases h0 : s.STEP = 0#7
    · exact .inl h0
    · by_cases h65 : s.STEP = 65#7
      · exact .inr (.inr h65)
      · refine .inr (.inl ⟨⟨s.STEP.toNat - 1, by bv_omega⟩, ?_⟩)
        show s.STEP.toNat = s.STEP.toNat - 1 + 1
        bv_omega
  · exact hs
  · exact hs
  · exact hs

/-- One edge from a state with legal control, said once. -/
theorem step_cases (hc : ControlInv s) (h : step s = .next t) :
    ((nextPins s).rst = true ∧ t = resetEdge (consumePins s)) ∨
    (cmdReady s = true ∧ acceptedCommand s = none ∧ t = consumePins s) ∨
    (cmdReady s = true ∧ ∃ i, acceptedCommand s = some i ∧ exec i (consumePins s) = .next t) ∨
    (s.PH = Config.phPadf ∧ s.STEP = 0#7 ∧ t = formatFirst (consumePins s)) ∨
    (s.PH = Config.phPadl ∧ s.STEP = 0#7 ∧ t = formatLast (consumePins s)) ∨
    (s.PH = Config.phComp ∧ s.STEP = 0#7 ∧ t = loadWorking (consumePins s)) ∨
    (s.PH = Config.phComp ∧ ∃ e : Fin 64, s.STEP.toNat = e.val + 1 ∧ t = sequencerStep e (consumePins s)) ∨
    (s.PH = Config.phComp ∧ s.STEP = 65#7 ∧ t = addBackReturn (consumePins s)) := by
  by_cases hrst : (nextPins s).rst = true
  · rw [step_reset hrst] at h; cases h; exact .inl ⟨hrst, rfl⟩
  · have hrst : (nextPins s).rst = false := by simpa using hrst
    refine .inr ?_
    rcases hc.place with ⟨hp, -⟩ | ⟨hp, h0⟩ | ⟨hp, h0⟩ | ⟨hp, h0⟩ | ⟨hp, e, he⟩ | ⟨hp, h0⟩
    · have hr : cmdReady s = true := by simpa [cmdReady] using hp
      by_cases hv : (nextPins s).cmdValid = true
      · rw [step_command hrst hc.controlFault hr hv] at h
        exact .inr (.inl ⟨hr, _, by simp [acceptedCommand, hrst, hv, hr], h⟩)
      · have hv : (nextPins s).cmdValid = false := by simpa using hv
        rw [step_idle hrst hc.controlFault hr hv] at h; cases h
        exact .inl ⟨hr, by simp [acceptedCommand, hv], rfl⟩
    · rw [step_padf hrst hp h0] at h; cases h
      exact .inr (.inr (.inl ⟨hp, h0, rfl⟩))
    · rw [step_padl hrst hp h0] at h; cases h
      exact .inr (.inr (.inr (.inl ⟨hp, h0, rfl⟩)))
    · rw [step_load hrst hp hc.2.1 h0] at h; cases h
      exact .inr (.inr (.inr (.inr (.inl ⟨hp, h0, rfl⟩))))
    · rw [step_stepInstr hrst hp hc.2.1 e he] at h; cases h
      exact .inr (.inr (.inr (.inr (.inr (.inl ⟨hp, e, he, rfl⟩)))))
    · rw [step_addback hrst hp hc.2.1 h0] at h; cases h
      exact .inr (.inr (.inr (.inr (.inr (.inr ⟨hp, h0, rfl⟩)))))

theorem run_succ (k : Nat) (h : step s = .next t) : run (k + 1) s = run k t := by
  simp [run, h]

/-- Runs compose. -/
theorem run_add (j k : Nat) (h : run j s = .next t) : run (j + k) s = run k t := by
  induction j generalizing s with
  | zero => cases h; simp
  | succ j ih =>
    rw [Nat.add_right_comm]
    simp only [run] at h ⊢
    split at h
    · rename_i u hu; exact ih h
    · cases h
    · cases h

/-- One more edge at the end of a run. -/
theorem run_succ_last {u : State} (k : Nat) (h : run k s = .next t) (hs : step t = .next u) :
    run (k + 1) s = .next u := by
  rw [run_add k 1 h, run_succ 0 hs]; rfl

/-- Where no `rst` is driven for `k` edges, the edge after `j < k` of them has none. -/
theorem NoReset.at {k j : Nat} (h : NoReset k s) (hj : j < k) (ht : t.inputs = s.inputs.drop j) :
    (nextPins t).rst = false := by
  rw [nextPins, ht, List.headD_eq_head?_getD, List.head?_drop]
  cases hg : s.inputs[j]? with
  | none => rfl
  | some p =>
    refine h p ?_
    obtain ⟨hlt, he⟩ := List.getElem?_eq_some_iff.mp hg
    rw [← he]
    exact List.mem_take_iff_getElem.mpr ⟨j, by omega, rfl⟩

/-- The edges left after `j` of `j + k` edges without `rst` have none. -/
theorem NoReset.drop {k j : Nat} (h : NoReset (j + k) s) (ht : t.inputs = s.inputs.drop j) : NoReset k t := by
  intro p hp
  rw [ht, List.take_drop] at hp
  exact h p (List.mem_of_mem_drop hp)

theorem NoReset.mono {k j : Nat} (h : NoReset k s) (hj : j ≤ k) : NoReset j s := fun p hp =>
  h p ((List.take_prefix_take_left hj).subset hp)

/-- Where no `rst` is driven for `k + 1` edges, the coming edge has none and neither have the `k` after it. -/
theorem NoReset.succ {k : Nat} (h : NoReset (k + 1) s) :
    (nextPins s).rst = false ∧ ∀ t : State, t.inputs = s.inputs.tail → NoReset k t := by
  cases hi : s.inputs with
  | nil =>
    refine ⟨by simp [nextPins, hi, noOffer], fun t ht => ?_⟩
    simp [NoReset, ht]
  | cons p r =>
    simp only [NoReset, hi, List.take_succ_cons, List.mem_cons] at h
    refine ⟨by simpa [nextPins, hi] using h p (.inl rfl), fun t ht q hq => h q (.inr ?_)⟩
    simpa [ht] using hq

/-- A command that is accepted: the port is ready, `rst` is 0, and the command is the word on the port. -/
theorem acceptedCommand_eq_some {i : Instr} (h : acceptedCommand s = some i) :
    (nextPins s).rst = false ∧ (nextPins s).cmdValid = true ∧ cmdReady s = true ∧
      i = decodeCommand (nextPins s).cmd := by
  simp only [acceptedCommand] at h
  split at h
  · rename_i hc
    exact ⟨hc.1, hc.2.1, hc.2.2, by simpa using h.symm⟩
  · cases h

/-- A command word is one of the four commands. -/
theorem decodeCommand_cases (w : BitVec 10) :
    decodeCommand w = .init ∨ (∃ v, decodeCommand w = .data v) ∨ decodeCommand w = .final ∨
      decodeCommand w = .rsvd := by
  unfold decodeCommand
  split
  · exact .inl rfl
  · split
    · exact .inr (.inl ⟨_, rfl⟩)
    · split
      · exact .inr (.inr (.inl rfl))
      · exact .inr (.inr (.inr rfl))

/-- In the not-ready phases no command is accepted. -/
theorem acceptedCommand_notReady (hr : cmdReady s = false) : acceptedCommand s = none := by
  simp [acceptedCommand, hr]

/-- A ready phase with legal control is `ABSORB` or `DONE` with `STEP = 0`. -/
theorem ControlInv.ready (hc : ControlInv s) (hr : cmdReady s = true) :
    (s.PH = Config.phAbsorb ∨ s.PH = Config.phDone) ∧ s.STEP = 0#7 := by
  rcases hc.place with h | ⟨hp, h⟩ | ⟨hp, h⟩ | ⟨hp, h⟩ | ⟨hp, e, he⟩ | ⟨hp, h⟩
  · exact h
  all_goals simp [cmdReady, hp] at hr

end Sys2Proof.Machine
end

