-- ==== Sys2Proof/Machine/HostStream.lean ====
section
/-!
DEFINITION. The command streams of 30_encoding.md section 6 (R110, R111) and the host that offers them: it holds an offer until
it is accepted, and drives `rst` for RESET. The host is no part of step: a stream only says what stands on the input ports.
-/

namespace Sys2Proof.Machine

/-- What the host does next: hold the offer of a word until it is accepted, drive `rst` for one edge, or let edges pass
until the port is ready (R110). -/
inductive HostOp where
  | offerWord (w : BitVec 10)
  | reset
  | wait
  deriving DecidableEq, Repr

/-- A line of a command stream (R110), pseudo-instructions included (R111). -/
inductive StreamLine where
  | init
  | data (v : Byte)
  | final
  | rsvd (v : Byte)
  | reset
  | wait
  /-- `MSG`: one `DATA` per byte. -/
  | msg (m : List Byte)
  /-- `DIGEST m`: `INIT`; `MSG m`; `FINAL`; `WAIT`. -/
  | digest (m : List Byte)
  deriving DecidableEq, Repr

/-- `DATA` of each byte, in order; nothing for the empty message (R111). -/
def messageOps (m : List Byte) : List HostOp := m.map fun v => .offerWord (1#2 ++ v)

/-- What a line stands for, with the command words of R110. -/
def StreamLine.ops : StreamLine → List HostOp
  | .init => [.offerWord 0x000#10]
  | .data v => [.offerWord (1#2 ++ v)]
  | .final => [.offerWord 0x200#10]
  | .rsvd v => [.offerWord (3#2 ++ v)]
  | .reset => [.reset]
  | .wait => [.wait]
  | .msg m => messageOps m
  | .digest m => [.offerWord 0x000#10] ++ messageOps m ++ [.offerWord 0x200#10, .wait]

/-- The operations of a stream, top to bottom (R110). -/
def streamOps (lines : List StreamLine) : List HostOp := lines.flatMap StreamLine.ops

/-- What the host drives at an edge before which `cmd_ready` is `ready`, and what it has left to do after it. -/
def hostEdge : List HostOp → Bool → Pins × List HostOp
  | [], _ => (noOffer, [])
  | .reset :: ops, _ => (assertReset, ops)
  | .offerWord w :: ops, ready => (offer w, if ready then ops else .offerWord w :: ops)
  | .wait :: ops, true => hostEdge ops true
  | .wait :: ops, false => (noOffer, .wait :: ops)

/-- `k` edges of the machine with that host; the samples stand before what the state's own list holds. -/
def runStream : Nat → List HostOp → State → Host.Outcome State Fault Refusal
  | 0, _, s => .next s
  | k + 1, ops, s =>
    match step { s with inputs := (hostEdge ops (cmdReady s)).1 :: s.inputs } with
    | .next t => runStream k (hostEdge ops (cmdReady s)).2 t
    | .fault r => .fault r
    | .refused r => .refused r

end Sys2Proof.Machine
end

