-- ==== Sys2Proof/Tests/Slice0.lean ====
section
/-!
SUPPORT. The model's own tests: ill-formed terms the checks refuse, words written out from the spec's encodings, single
steps against the vectors of 95_test_vectors.md, and a witness for the hypotheses of each statement.
-/

namespace Sys2Proof.Tests

open Sys2Proof Sys2Proof.Machine

/-! ### Helpers -/

/-- The reset state at a phase, a step, a length and with samples of the input ports. -/
def stateAt (ph : BitVec 3) (st : BitVec 7) (len : BitVec 64) (pins : List Pins) : State :=
  { State.reset with PH := ph, STEP := st, LEN := len, inputs := pins }

/-- One field of the next state of an outcome, and nothing of a stop. -/
def after {α : Type} (o : Host.Outcome State Fault Refusal) (f : State → α) : Option α :=
  match o with
  | .next t => some (f t)
  | .fault _ => none
  | .refused _ => none

/-- The reason an outcome faults. -/
def faultOf (o : Host.Outcome State Fault Refusal) : Option Fault :=
  match o with
  | .next _ => none
  | .fault r => some r
  | .refused _ => none

/-- A state in `COMP` with a block in the buffer and values in the working registers. -/
def compressing (x : Buffer) (w : Chain) : State :=
  { State.reset with X := x, a := w.A, b := w.B, c := w.C, d := w.D, PH := Config.phComp }

/-- Each instruction of the list takes the working registers from one entry of the trace to the next. -/
def stepsMatch (x : Buffer) (is : List Instr) (trace : List Chain) : Bool :=
  (is.zip (trace.zip trace.tail)).all fun p =>
    after (exec p.1 (compressing x p.2.1)) workingOf == some p.2.2

/-- The bytes of BUF from `lo`, `n` of them. -/
def bytesFrom (x : Buffer) (lo n : Nat) : List Byte := ((blockBytesOf x).drop lo).take n

/-- A buffer in which every byte is `0x61`. -/
def allA : Buffer := Vector.replicate 16 0x61616161#32

/-! ### Ill-formed terms are refused (30_encoding.md R107, R108) -/

/-- `PH` 5, 6 and 7 have no micro-operation. -/
theorem test_ill_formed_phase :
    [(Fetched.selector 0b1010000000#10).wellFormed, (Fetched.selector 0b1100000000#10).wellFormed,
      (Fetched.selector 0b1110000000#10).wellFormed] = [false, false, false] := by decide

/-- `ABSORB` and `DONE` are ready phases: none is selected. -/
theorem test_ill_formed_ready_phase :
    [(Fetched.selector 0b0000000000#10).wellFormed, (Fetched.selector 0b1000000000#10).wellFormed] = [false, false] := by
  decide

/-- `STEP` 66 and 127 in `COMP`. -/
theorem test_ill_formed_step_in_comp :
    [(Fetched.selector 0b0011000010#10).wellFormed, (Fetched.selector 0b0011111111#10).wellFormed] = [false, false] := by
  decide

/-- `STEP` other than 0 in `PADF` and `PADL`. -/
theorem test_ill_formed_step_in_padding :
    [(Fetched.selector 0b0100000001#10).wellFormed, (Fetched.selector 0b0111000001#10).wellFormed] = [false, false] := by
  decide

/-- A schedule word with rotation amount 8, 0 or 31, which no entry uses. -/
theorem test_ill_formed_schedule_word :
    [scheduleWordWellFormed 0b00000001000#11, scheduleWordWellFormed 0b00000000000#11,
      scheduleWordWellFormed 0b11111111111#11] = [false, false, false] := by decide

/-- Every ROM entry is a well-formed schedule word. -/
theorem test_schedule_words_well_formed : ∀ e : Fin 64, scheduleWordWellFormed (sromAt e) = true := by decide

theorem test_decoder_names_its_refusals :
    [decodeSelector 0b1010000000#10, decodeSelector 0b0011000010#10, decodeSelector 0b0100000001#10,
      decodeSelector 0b1000000000#10] =
    [.error .noSuchPhase, .error .stepBeyondAddback, .error .stepOutsideComp, .error .portReady] := by decide

/-! ### Words written out from the encodings (30_encoding.md R102, R103, R107; 95_test_vectors.md section 3) -/

/-- Op in bits 9:8, byte in bits 7:0; the payload is ignored but for `DATA`. -/
theorem test_decode_commands :
    [0b0000000000#10, 0b0011111111#10, 0b0101100001#10, 0b0100000000#10, 0b0111111111#10, 0b1000000000#10, 0b1001011010#10,
      0b1101011010#10, 0b1100000000#10].map decodeCommand =
    [.init, .init, .data 0x61#8, .data 0x00#8, .data 0xff#8, .final, .final, .rsvd, .rsvd] := by decide

theorem test_decode_padding_load_addback :
    [0b0100000000#10, 0b0110000000#10, 0b0010000000#10, 0b0011000001#10].map decodeSelector =
    [.ok .padf, .ok .padl, .ok .load, .ok .addback] := by decide

theorem test_decode_round1 :
    [0b0010000001#10, 0b0010000010#10, 0b0010000011#10, 0b0010000100#10,
      0b0010000101#10, 0b0010000110#10, 0b0010000111#10, 0b0010001000#10,
      0b0010001001#10, 0b0010001010#10, 0b0010001011#10, 0b0010001100#10,
      0b0010001101#10, 0b0010001110#10, 0b0010001111#10, 0b0010010000#10].map decodeSelector = stepsOfRound1.map Except.ok := by decide

theorem test_decode_round2 :
    [0b0010010001#10, 0b0010010010#10, 0b0010010011#10, 0b0010010100#10,
      0b0010010101#10, 0b0010010110#10, 0b0010010111#10, 0b0010011000#10,
      0b0010011001#10, 0b0010011010#10, 0b0010011011#10, 0b0010011100#10,
      0b0010011101#10, 0b0010011110#10, 0b0010011111#10, 0b0010100000#10].map decodeSelector = stepsOfRound2.map Except.ok := by decide

theorem test_decode_round3 :
    [0b0010100001#10, 0b0010100010#10, 0b0010100011#10, 0b0010100100#10,
      0b0010100101#10, 0b0010100110#10, 0b0010100111#10, 0b0010101000#10,
      0b0010101001#10, 0b0010101010#10, 0b0010101011#10, 0b0010101100#10,
      0b0010101101#10, 0b0010101110#10, 0b0010101111#10, 0b0010110000#10].map decodeSelector = stepsOfRound3.map Except.ok := by decide

theorem test_decode_round4 :
    [0b0010110001#10, 0b0010110010#10, 0b0010110011#10, 0b0010110100#10,
      0b0010110101#10, 0b0010110110#10, 0b0010110111#10, 0b0010111000#10,
      0b0010111001#10, 0b0010111010#10, 0b0010111011#10, 0b0010111100#10,
      0b0010111101#10, 0b0010111110#10, 0b0010111111#10, 0b0011000000#10].map decodeSelector = stepsOfRound4.map Except.ok := by decide

/-- A table word of each form and family; `0x100` alone stands in both formats and reads as the selection (log entry 4). -/
theorem test_table_words :
    [decodeTableWord 16 0x000, decodeTableWord 16 0x161, decodeTableWord 16 0x200, decodeTableWord 16 0x300,
      decodeTableWord 16 0x100, decodeTableWord 16 0x180, decodeTableWord 16 0x080, decodeTableWord 16 0x0c0,
      decodeTableWord 16 0x0c1, decodeTableWord 16 0x400] =
    [some .init, some (.data 0x61#8), some .final, some .rsvd, some .padf, some .padl, some .load, some .step64,
      some .addback, none] := by decide

/-- Placed words run at the first edge after reset: the registers each changes. -/
theorem test_placed_words_run_from_reset :
    after (step (State.reset.withFetchWord 16 0x161)) (fun t => (readByte t.X 0, t.LEN)) = some (0x61#8, 8#64) ∧
      after (step (State.reset.withFetchWord 16 0x200)) (·.PH) = some Config.phPadf ∧
      after (step (State.reset.withFetchWord 16 0x300)) (·.ERR) = some true ∧
      after (step (State.reset.withFetchWord 16 0x100)) (fun t => t.X.get 0) = some 0x80#32 ∧
      after (step (State.reset.withFetchWord 16 0x080)) (·.a) = some 0x67452301#32 ∧
      after (step (State.reset.withFetchWord 16 0x0c0)) (·.STEP) = some 65#7 ∧
      after (step (State.reset.withFetchWord 16 0x0c1)) (·.PH) = some Config.phAbsorb := by decide

/-! ### The datapath (95_test_vectors.md sections 2.1 to 2.3) -/

theorem test_add32_wraps :
    add32 0xffffffff#32 0x00000001#32 = 0#32 ∧ add32 0x67452301#32 0x7246fad3#32 = 0xd98c1dd4#32 ∧
      sum4 0xffffffff#32 0xffffffff#32 0xffffffff#32 0xffffffff#32 = 0xfffffffc#32 := by decide

theorem test_rotl32 :
    rotl32 0x80000000#32 1#5 = 0x00000001#32 ∧ rotl32 0x00000001#32 31#5 = 0x80000000#32 ∧
      rotl32 0x12345678#32 0#5 = 0x12345678#32 ∧ rotl32 0x80000001#32 23#5 = 0x00c00000#32 ∧
      rotl32 0xdeadbeef#32 21#5 = 0xddfbd5b7#32 := by decide

/-- The row with all eight input combinations, and an arbitrary one. -/
theorem test_round_functions :
    [0#2, 1#2, 2#2, 3#2].map (fsel · 0x0f0f0f0f#32 0x33333333#32 0x55555555#32) =
      [0x53535353#32, 0x27272727#32, 0x69696969#32, 0x9c9c9c9c#32] ∧
    [0#2, 1#2, 2#2, 3#2].map (fsel · 0x12345678#32 0x9abcdef0#32 0x0fedcba9#32) =
      [0x1ffddff1#32, 0x92345678#32, 0x87654321#32, 0x688aa88e#32] := by decide

theorem test_stepfn :
    let f := stepFn 0x67452301#32 0xefcdab89#32 0x98badcfe#32 0x10325476#32 0x00000080#32
    [f 0xd76aa478#32 7#5 0#2, f 0xf61e2562#32 5#5 1#2, f 0xfffa3942#32 4#5 2#2, f 0xf4292244#32 6#5 3#2] =
      [0xa5202774#32, 0xad47d905#32, 0xd815a7d5#32, 0xa93cfabd#32] := by decide

/-! ### The sequencer (95_test_vectors.md section 2.6) -/

/-- The padded block of the empty message (section 1.1). -/
def emptyMessageBlock : Buffer := (Vector.replicate 16 0#32).set 0 0x80#32

/-- The block of the bytes `00` to `3f` (section 2.5). -/
def countingBlock : Buffer :=
  #v[0x03020100#32, 0x07060504#32, 0x0b0a0908#32, 0x0f0e0d0c#32, 0x13121110#32, 0x17161514#32, 0x1b1a1918#32, 0x1f1e1d1c#32,
    0x23222120#32, 0x27262524#32, 0x2b2a2928#32, 0x2f2e2d2c#32, 0x33323130#32, 0x37363534#32, 0x3b3a3938#32, 0x3f3e3d3c#32]

theorem test_load :
    after (exec .load (stateAt 1#3 0#7 0#64 [])) workingOf =
      some ⟨0x67452301#32, 0xefcdab89#32, 0x98badcfe#32, 0x10325476#32⟩ := by decide

/-- The working registers of the block of the empty message before `STEP 1` and after each step to `STEP 16`
(95_test_vectors.md section 2.6). -/
def traceOfRound1 : List Chain :=
  [ ⟨0x67452301#32, 0xefcdab89#32, 0x98badcfe#32, 0x10325476#32⟩,
    ⟨0xa5202774#32, 0xefcdab89#32, 0x98badcfe#32, 0x10325476#32⟩,
    ⟨0xa5202774#32, 0xefcdab89#32, 0x98badcfe#32, 0xf59592dd#32⟩,
    ⟨0xa5202774#32, 0xefcdab89#32, 0xe7f06b23#32, 0xf59592dd#32⟩,
    ⟨0xa5202774#32, 0x1b163203#32, 0xe7f06b23#32, 0xf59592dd#32⟩,
    ⟨0x32033344#32, 0x1b163203#32, 0xe7f06b23#32, 0xf59592dd#32⟩,
    ⟨0x32033344#32, 0x1b163203#32, 0xe7f06b23#32, 0x2f35d494#32⟩,
    ⟨0x32033344#32, 0x1b163203#32, 0xf5b158db#32, 0x2f35d494#32⟩,
    ⟨0x32033344#32, 0x9bc13ce9#32, 0xf5b158db#32, 0x2f35d494#32⟩,
    ⟨0x3893b991#32, 0x9bc13ce9#32, 0xf5b158db#32, 0x2f35d494#32⟩,
    ⟨0x3893b991#32, 0x9bc13ce9#32, 0xf5b158db#32, 0xfce4a312#32⟩,
    ⟨0x3893b991#32, 0x9bc13ce9#32, 0xe1ef0576#32, 0xfce4a312#32⟩,
    ⟨0x3893b991#32, 0x70768a29#32, 0xe1ef0576#32, 0xfce4a312#32⟩,
    ⟨0xf56c7cf1#32, 0x70768a29#32, 0xe1ef0576#32, 0xfce4a312#32⟩,
    ⟨0xf56c7cf1#32, 0x70768a29#32, 0xe1ef0576#32, 0x374943a7#32⟩,
    ⟨0xf56c7cf1#32, 0x70768a29#32, 0x5aa53f75#32, 0x374943a7#32⟩,
    ⟨0xf56c7cf1#32, 0xd6819c6a#32, 0x5aa53f75#32, 0x374943a7#32⟩]

theorem test_steps_of_round1 :
    stepsMatch emptyMessageBlock stepsOfRound1 traceOfRound1 = true := by decide +kernel

/-- The working registers of the block of the empty message before `STEP 17` and after each step to `STEP 32`
(95_test_vectors.md section 2.6). -/
def traceOfRound2 : List Chain :=
  [ ⟨0xf56c7cf1#32, 0xd6819c6a#32, 0x5aa53f75#32, 0x374943a7#32⟩,
    ⟨0x1c7d7513#32, 0xd6819c6a#32, 0x5aa53f75#32, 0x374943a7#32⟩,
    ⟨0x1c7d7513#32, 0xd6819c6a#32, 0x5aa53f75#32, 0x7bd57a3a#32⟩,
    ⟨0x1c7d7513#32, 0xd6819c6a#32, 0xc095f13a#32, 0x7bd57a3a#32⟩,
    ⟨0x1c7d7513#32, 0xbd782e17#32, 0xc095f13a#32, 0x7bd57a3a#32⟩,
    ⟨0x3d1e3e6c#32, 0xbd782e17#32, 0xc095f13a#32, 0x7bd57a3a#32⟩,
    ⟨0x3d1e3e6c#32, 0xbd782e17#32, 0xc095f13a#32, 0x68b7b3e3#32⟩,
    ⟨0x3d1e3e6c#32, 0xbd782e17#32, 0xeb41643e#32, 0x68b7b3e3#32⟩,
    ⟨0x3d1e3e6c#32, 0xe422531a#32, 0xeb41643e#32, 0x68b7b3e3#32⟩,
    ⟨0x306ec122#32, 0xe422531a#32, 0xeb41643e#32, 0x68b7b3e3#32⟩,
    ⟨0x306ec122#32, 0xe422531a#32, 0xeb41643e#32, 0xd28c77c2#32⟩,
    ⟨0x306ec122#32, 0xe422531a#32, 0xa3c663da#32, 0xd28c77c2#32⟩,
    ⟨0x306ec122#32, 0xa0572807#32, 0xa3c663da#32, 0xd28c77c2#32⟩,
    ⟨0x13707036#32, 0xa0572807#32, 0xa3c663da#32, 0xd28c77c2#32⟩,
    ⟨0x13707036#32, 0xa0572807#32, 0xa3c663da#32, 0xae7813db#32⟩,
    ⟨0x13707036#32, 0xa0572807#32, 0x1c31c384#32, 0xae7813db#32⟩,
    ⟨0x13707036#32, 0xa2205f1f#32, 0x1c31c384#32, 0xae7813db#32⟩]

theorem test_steps_of_round2 :
    stepsMatch emptyMessageBlock stepsOfRound2 traceOfRound2 = true := by decide +kernel

/-- The working registers of the block of the empty message before `STEP 33` and after each step to `STEP 48`
(95_test_vectors.md section 2.6). -/
def traceOfRound3 : List Chain :=
  [ ⟨0x13707036#32, 0xa2205f1f#32, 0x1c31c384#32, 0xae7813db#32⟩,
    ⟨0xdf63eaa1#32, 0xa2205f1f#32, 0x1c31c384#32, 0xae7813db#32⟩,
    ⟨0xdf63eaa1#32, 0xa2205f1f#32, 0x1c31c384#32, 0xc3689f5b#32⟩,
    ⟨0xdf63eaa1#32, 0xa2205f1f#32, 0x12f3e755#32, 0xc3689f5b#32⟩,
    ⟨0xdf63eaa1#32, 0x004b6669#32, 0x12f3e755#32, 0xc3689f5b#32⟩,
    ⟨0x5f7a9b2e#32, 0x004b6669#32, 0x12f3e755#32, 0xc3689f5b#32⟩,
    ⟨0x5f7a9b2e#32, 0x004b6669#32, 0x12f3e755#32, 0xabc34e16#32⟩,
    ⟨0x5f7a9b2e#32, 0x004b6669#32, 0x91ca4cb7#32, 0xabc34e16#32⟩,
    ⟨0x5f7a9b2e#32, 0xc5dc8c15#32, 0x91ca4cb7#32, 0xabc34e16#32⟩,
    ⟨0x4497169d#32, 0xc5dc8c15#32, 0x91ca4cb7#32, 0xabc34e16#32⟩,
    ⟨0x4497169d#32, 0xc5dc8c15#32, 0x91ca4cb7#32, 0x76fd93d4#32⟩,
    ⟨0x4497169d#32, 0xc5dc8c15#32, 0xfd95f243#32, 0x76fd93d4#32⟩,
    ⟨0x4497169d#32, 0x0fe32453#32, 0xfd95f243#32, 0x76fd93d4#32⟩,
    ⟨0x3f55edfd#32, 0x0fe32453#32, 0xfd95f243#32, 0x76fd93d4#32⟩,
    ⟨0x3f55edfd#32, 0x0fe32453#32, 0xfd95f243#32, 0x22a31f54#32⟩,
    ⟨0x3f55edfd#32, 0x0fe32453#32, 0x68d84ea2#32, 0x22a31f54#32⟩,
    ⟨0x3f55edfd#32, 0xca7d2dbd#32, 0x68d84ea2#32, 0x22a31f54#32⟩]

theorem test_steps_of_round3 :
    stepsMatch emptyMessageBlock stepsOfRound3 traceOfRound3 = true := by decide +kernel

/-- The working registers of the block of the empty message before `STEP 49` and after each step to `STEP 64`
(95_test_vectors.md section 2.6). -/
def traceOfRound4 : List Chain :=
  [ ⟨0x3f55edfd#32, 0xca7d2dbd#32, 0x68d84ea2#32, 0x22a31f54#32⟩,
    ⟨0x93aa2577#32, 0xca7d2dbd#32, 0x68d84ea2#32, 0x22a31f54#32⟩,
    ⟨0x93aa2577#32, 0xca7d2dbd#32, 0x68d84ea2#32, 0x1688dc85#32⟩,
    ⟨0x93aa2577#32, 0xca7d2dbd#32, 0xcd85b8cb#32, 0x1688dc85#32⟩,
    ⟨0x93aa2577#32, 0x561e0689#32, 0xcd85b8cb#32, 0x1688dc85#32⟩,
    ⟨0x5625a114#32, 0x561e0689#32, 0xcd85b8cb#32, 0x1688dc85#32⟩,
    ⟨0x5625a114#32, 0x561e0689#32, 0xcd85b8cb#32, 0x3450f42b#32⟩,
    ⟨0x5625a114#32, 0x561e0689#32, 0x392ad0d0#32, 0x3450f42b#32⟩,
    ⟨0x5625a114#32, 0x1e77fa61#32, 0x392ad0d0#32, 0x3450f42b#32⟩,
    ⟨0x474a9c8c#32, 0x1e77fa61#32, 0x392ad0d0#32, 0x3450f42b#32⟩,
    ⟨0x474a9c8c#32, 0x1e77fa61#32, 0x392ad0d0#32, 0xdfce00bc#32⟩,
    ⟨0x474a9c8c#32, 0x1e77fa61#32, 0x36594b14#32, 0xdfce00bc#32⟩,
    ⟨0x474a9c8c#32, 0x30130182#32, 0x36594b14#32, 0xdfce00bc#32⟩,
    ⟨0x7246fad3#32, 0x30130182#32, 0x36594b14#32, 0xdfce00bc#32⟩,
    ⟨0x7246fad3#32, 0x30130182#32, 0x36594b14#32, 0x6e10a476#32⟩,
    ⟨0x7246fad3#32, 0x30130182#32, 0xff4ea3eb#32, 0x6e10a476#32⟩,
    ⟨0x7246fad3#32, 0x14e45506#32, 0xff4ea3eb#32, 0x6e10a476#32⟩]

theorem test_steps_of_round4 :
    stepsMatch emptyMessageBlock stepsOfRound4 traceOfRound4 = true := by decide +kernel

/-- The steps of the counting block whose registers before and after the spec lists: 1 to 4, 17, 33, 49 and 64. -/
theorem test_steps_of_the_counting_block :
    stepsMatch countingBlock [.step1, .step2, .step3, .step4]
      [⟨0x67452301#32, 0xefcdab89#32, 0x98badcfe#32, 0x10325476#32⟩, ⟨0x26206776#32, 0xefcdab89#32, 0x98badcfe#32, 0x10325476#32⟩,
       ⟨0x26206776#32, 0xefcdab89#32, 0x98badcfe#32, 0xd2e5f35f#32⟩, ⟨0x26206776#32, 0xefcdab89#32, 0x5855e17a#32, 0xd2e5f35f#32⟩,
       ⟨0x26206776#32, 0x10a3a155#32, 0x5855e17a#32, 0xd2e5f35f#32⟩] = true ∧
    stepsMatch countingBlock [.step17]
      [⟨0x703ffb15#32, 0xb744be1e#32, 0x42a63f7d#32, 0x75480cb1#32⟩, ⟨0x60915912#32, 0xb744be1e#32, 0x42a63f7d#32, 0x75480cb1#32⟩] =
      true ∧
    stepsMatch countingBlock [.step33]
      [⟨0x4269463b#32, 0x7eb2d796#32, 0x9ded1de9#32, 0xf4c0b183#32⟩, ⟨0x9043e06d#32, 0x7eb2d796#32, 0x9ded1de9#32, 0xf4c0b183#32⟩] =
      true ∧
    stepsMatch countingBlock [.step49]
      [⟨0x6bb50c1f#32, 0x72fba73c#32, 0xef2fa8d1#32, 0x13e01256#32⟩, ⟨0x9f195b19#32, 0x72fba73c#32, 0xef2fa8d1#32, 0x13e01256#32⟩] =
      true ∧
    stepsMatch countingBlock [.step64]
      [⟨0x29ffb6c9#32, 0xf6be582c#32, 0xda417e3a#32, 0x522da0a8#32⟩, ⟨0x29ffb6c9#32, 0xe9343940#32, 0xda417e3a#32, 0x522da0a8#32⟩] =
      true := by decide +kernel

/-- `compress` of the counting block from the IV, both forms (sections 2.6, 2.9). -/
theorem test_compress_of_the_counting_block :
    compress countingBlock iv = ⟨0x9144d9ca#32, 0xd901e4c9#32, 0x72fc5b38#32, 0x625ff51e#32⟩ ∧
      compressRotating countingBlock iv = ⟨0x9144d9ca#32, 0xd901e4c9#32, 0x72fc5b38#32, 0x625ff51e#32⟩ := by decide +kernel

/-- The feed-forward of the empty message, and the return to the phase in `RET`. -/
theorem test_addback :
    let s := { compressing emptyMessageBlock ⟨0x7246fad3#32, 0x14e45506#32, 0xff4ea3eb#32, 0x6e10a476#32⟩ with RET := 4#3 }
    after (exec .addback s) (fun t => (chainOf t, t.PH, t.STEP)) =
      some (⟨0xd98c1dd4#32, 0x04b2008f#32, 0x980980e9#32, 0x7e42f8ec#32⟩, 4#3, 0#7) := by decide

/-! ### The padding engine (95_test_vectors.md section 2.4) -/

/-- n = 55, the last fill index with room for the length field; the message bytes stay. -/
theorem test_padf_n55 :
    after (exec .padf { stateAt 2#3 0#7 0x1b8#64 [] with X := allA }) (fun t => (bytesFrom t.X 53 11, t.RET)) =
      some ([0x61, 0x61, 0x80, 0xb8, 0x01, 0, 0, 0, 0, 0, 0], 4#3) := by decide

/-- n = 56, the first without; zeros above the marker, and `RET` = `PADL`. -/
theorem test_padf_n56 :
    after (exec .padf { stateAt 2#3 0#7 0x1c0#64 [] with X := allA }) (fun t => (bytesFrom t.X 54 10, t.RET)) =
      some ([0x61, 0x61, 0x80, 0, 0, 0, 0, 0, 0, 0], 3#3) := by decide

/-- Every byte of a length whose eight bytes differ. -/
theorem test_padl :
    after (exec .padl { stateAt 3#3 0#7 0x0123456789abcde8#64 [] with X := allA })
      (fun t => (bytesFrom t.X 54 10, t.X.get 14, t.X.get 15, t.X.get 0, t.RET, t.PH)) =
      some ([0, 0, 0xe8, 0xcd, 0xab, 0x89, 0x67, 0x45, 0x23, 0x01], 0x89abcde8#32, 0x01234567#32, 0#32, 4#3, 1#3) := by decide

/-- z, the padded length and the length field of messages of 55 and 56 bytes. -/
theorem test_pad_lengths :
    [0, 55, 56, 63, 64, 120].map padZeros = [55, 0, 63, 56, 55, 63] ∧ (pad (List.replicate 55 0x61#8)).length = 64 ∧
      (pad (List.replicate 56 0x61#8)).length = 128 := by decide +kernel

/-! ### The commands (95_test_vectors.md section 2.10) -/

theorem test_init :
    after (exec .init { stateAt 4#3 0#7 0x18#64 [] with A := 1#32, ERR := true }) (fun t => (t.A, t.LEN, t.PH, t.ERR)) =
      some (0x67452301#32, 0#64, 0#3, true) := by decide

/-- n = 3: bits 31:24 of `X[0]`. -/
theorem test_data_lane3 :
    after (exec (.data 0x64#8) { stateAt 0#3 0#7 0x18#64 [] with X := allA }) (fun t => (t.X.get 0, t.X.get 1, t.LEN, t.PH)) =
      some (0x64616161#32, 0x61616161#32, 0x20#64, 0#3) := by decide

/-- n = 63 at the largest length: `LEN` wraps to 0 and the compression starts. -/
theorem test_data_wraps :
    after (exec (.data 0x00#8) { stateAt 0#3 0#7 0xfffffffffffffff8#64 [] with X := allA, RET := 4#3 })
      (fun t => (t.X.get 15, t.LEN, t.PH, t.STEP, t.RET)) =
      some (0x00616161#32, 0#64, 1#3, 0#7, 0#3) := by decide

theorem test_final :
    after (exec .final (stateAt 0#3 0#7 0x18#64 [])) (fun t => (t.PH, t.LEN, t.RET)) = some (2#3, 0x18#64, 0#3) := by decide

theorem test_final_in_done_is_dropped :
    after (exec .final (stateAt 4#3 0#7 0x18#64 [])) (fun t => (t.PH, t.ERR)) = some (4#3, true) := by decide

theorem test_rsvd :
    after (exec .rsvd (stateAt 0#3 0#7 0x18#64 [])) (fun t => (t.PH, t.ERR, t.LEN)) = some (0#3, true, 0x18#64) := by decide

/-! ### Edges and ports (30_encoding.md R101; 60_exceptions.md R376; 70_reset_and_hazards.md R400, R420) -/

/-- The offer at a not-ready edge is not remembered: the micro-operation runs and the list goes on. -/
theorem test_offer_at_not_ready_edge :
    after (step (stateAt 1#3 0#7 0#64 [offer 0x300#10])) (fun t => (t.STEP, t.ERR, t.inputs)) = some (1#7, false, []) := by
  decide

/-- Reset has priority over the due `STEP 10` and an offer, and keeps `a` (program P9). -/
theorem test_reset_has_priority :
    after (step { stateAt 1#3 10#7 0x200#64 [⟨true, true, 0x300#10⟩] with a := 7#32, ERR := true })
      (fun t => (t.PH, t.STEP, t.LEN, t.ERR, t.a)) = some (0#3, 0#7, 0#64, false, 7#32) := by decide

/-- Control values without a row stop the edge under their own names. -/
theorem test_unreachable_control_stops :
    [faultOf (step (stateAt 5#3 0#7 0#64 [])), faultOf (step (stateAt 1#3 66#7 0#64 [])),
      faultOf (step (stateAt 0#3 1#7 0#64 [offer 0x000#10])), faultOf (step { stateAt 1#3 0#7 0#64 [] with RET := 1#3 })] =
    [some .unreachablePhase, some .unreachableStep, some .unreachableStep, some .unreachableReturn] := by decide

/-- The last row of section 2.7. -/
theorem test_digest_port :
    let s := { State.reset with A := 1#32, B := 0#32, C := 0x80000000#32, D := 0xffffffff#32 }
    digest s = 0xffffffff800000000000000000000001#128 ∧
      finalize (chainOf s) = [1, 0, 0, 0, 0, 0, 0, 0, 0, 0, 0, 0x80, 0xff, 0xff, 0xff, 0xff] := by decide

/-- The edge counts of section 2.8. -/
theorem test_edge_counts : [0, 1, 55, 56, 63, 64, 119, 120, 1000].map messageEdges =
    [68, 69, 123, 191, 198, 198, 253, 321, 2058] := by decide

/-- The source's own vectors for the empty message and for "abc" (section 1.2). -/
theorem test_known_vectors :
    md5Hexdigest [] = "d41d8cd98f00b204e9800998ecf8427e".toList ∧
      md5Hexdigest [0x61#8, 0x62#8, 0x63#8] = "900150983cd24fb0d6963f7d28e17f72".toList := by decide +kernel

/-! ### Command streams (30_encoding.md R110, R111) -/

theorem test_stream_words :
    streamOps [.init, .data 0x61#8, .rsvd 0xff#8, .digest [0x78#8]] =
      [.offerWord 0x000#10, .offerWord 0x161#10, .offerWord 0x3ff#10, .offerWord 0x000#10, .offerWord 0x178#10,
        .offerWord 0x200#10, .wait] := by decide

/-- An offer is held while the port is not ready, and `WAIT` costs no edge where it is. -/
theorem test_host_edge :
    hostEdge [.offerWord 0x200#10, .wait] false = (offer 0x200#10, [.offerWord 0x200#10, .wait]) ∧
      hostEdge [.wait, .reset] true = (assertReset, []) ∧ hostEdge [.wait, .reset] false = (noOffer, [.wait, .reset]) := by
  decide

/-! ### Witnesses: the hypotheses of each statement can be met, at the boundaries of its clauses -/

theorem witness_DecodeOfEncodeIsTheInstruction :
    (Instr.data 0xff#8).wellFormed = true ∧ Instr.addback.wellFormed = true := by decide

/-- The lowest and highest selection of each phase. -/
theorem witness_SelectionsAreUnambiguous :
    [0x080#10, 0x0c1#10, 0x100#10, 0x180#10].map (fun u => decode (.selector u)) =
      [.ok .load, .ok .addback, .ok .padf, .ok .padl] := by decide

theorem witness_PayloadMattersOnlyForData : (0#2 ≠ 1#2) ∧ (2#2 ≠ 1#2) ∧ (3#2 ≠ 1#2) := by decide

theorem witness_PlacedWordRunsNext :
    decodeTableWord 16 0x0c1 = some .addback ∧ encode .addback = .selector 0x0c1#10 ∧
      decodeTableWord 16 0x1ff = some (.data 0xff#8) ∧ encode (.data 0xff#8) = .command 0x1ff#10 ∧
      returnLegal State.reset.RET = true := by decide

theorem controlInv_stateAt (ph : BitVec 3) (st : BitVec 7) (len : BitVec 64) (pins : List Pins)
    (h : ph.toNat ≤ 4 ∧ stepInPhase ph st = true) : ControlInv (stateAt ph st len pins) :=
  ⟨h.1, (by decide : returnLegal State.reset.RET = true), h.2⟩

/-- A ready edge with and without an offer, and the first and last micro-operation of `COMP`, each with legal control. -/
theorem witness_StepRunsTheDecodedInstruction :
    (ControlInv (stateAt 4#3 0#7 0#64 [offer 0x3ff#10]) ∧ (nextPins (stateAt 4#3 0#7 0#64 [offer 0x3ff#10])).rst = false ∧
      cmdReady (stateAt 4#3 0#7 0#64 [offer 0x3ff#10]) = true ∧
      (nextPins (stateAt 4#3 0#7 0#64 [offer 0x3ff#10])).cmdValid = true) ∧
    (ControlInv State.reset ∧ (nextPins State.reset).rst = false ∧ cmdReady State.reset = true ∧
      (nextPins State.reset).cmdValid = false) ∧
    (ControlInv (stateAt 1#3 65#7 0#64 []) ∧ (nextPins (stateAt 1#3 65#7 0#64 [])).rst = false ∧
      cmdReady (stateAt 1#3 65#7 0#64 []) = false) ∧
    (ControlInv (stateAt 1#3 0#7 0#64 []) ∧ cmdReady (stateAt 1#3 0#7 0#64 []) = false) := by
  unfold ControlInv
  decide

theorem witness_NotReadyEdgeIgnoresTheOffer :
    cmdReady (stateAt 2#3 0#7 0#64 []) = false ∧ (offer 0x3ff#10).rst = noOffer.rst := by decide

/-- Legal control, no reset at the coming edge, and the phase of a row. -/
def rowAt (s : State) (ph : BitVec 3) : Prop := ControlInv s ∧ (nextPins s).rst = false ∧ s.PH = ph

/-- The reset row and the six rows of `ABSORB`, in order. -/
theorem witness_TransitionTable_absorb :
    (ControlInv (stateAt 1#3 9#7 0#64 [assertReset]) ∧ (nextPins (stateAt 1#3 9#7 0#64 [assertReset])).rst = true) ∧
    (rowAt (stateAt 0#3 0#7 0#64 []) 0#3 ∧
      acceptedCommand (stateAt 0#3 0#7 0#64 []) = none) ∧
    (rowAt (stateAt 0#3 0#7 0#64 [offer 0x000#10]) 0#3 ∧
      acceptedCommand (stateAt 0#3 0#7 0#64 [offer 0x000#10]) = some .init) ∧
    (rowAt (stateAt 0#3 0#7 0x1f0#64 [offer 0x1ff#10]) 0#3 ∧
      acceptedCommand (stateAt 0#3 0#7 0x1f0#64 [offer 0x1ff#10]) = some (.data 0xff#8) ∧
      (fillIndex 0x1f0#64).toNat < 63) ∧
    (rowAt (stateAt 0#3 0#7 0x1f8#64 [offer 0x100#10]) 0#3 ∧
      acceptedCommand (stateAt 0#3 0#7 0x1f8#64 [offer 0x100#10]) = some (.data 0x00#8) ∧
      (fillIndex 0x1f8#64).toNat = 63) ∧
    (rowAt (stateAt 0#3 0#7 0#64 [offer 0x200#10]) 0#3 ∧
      acceptedCommand (stateAt 0#3 0#7 0#64 [offer 0x200#10]) = some .final) ∧
    (rowAt (stateAt 0#3 0#7 0#64 [offer 0x300#10]) 0#3 ∧
      acceptedCommand (stateAt 0#3 0#7 0#64 [offer 0x300#10]) = some .rsvd) := by
  unfold rowAt ControlInv
  decide

/-- The rows of `PADF`, `PADL` and `COMP`, in order. -/
theorem witness_TransitionTable_micro :
    (rowAt (stateAt 2#3 0#7 0x1b8#64 []) 2#3 ∧ (fillIndex 0x1b8#64).toNat ≤ 55) ∧
    (rowAt (stateAt 2#3 0#7 0x1c0#64 []) 2#3 ∧ 56 ≤ (fillIndex 0x1c0#64).toNat) ∧
    rowAt (stateAt 3#3 0#7 0#64 []) 3#3 ∧
    (rowAt (stateAt 1#3 0#7 0#64 []) 1#3 ∧ (stateAt 1#3 0#7 0#64 []).STEP = 0#7) ∧
    (rowAt (stateAt 1#3 64#7 0#64 []) 1#3 ∧ (stateAt 1#3 64#7 0#64 []).STEP = BitVec.ofNat 7 ((63 : Fin 64).val + 1)) ∧
    (rowAt (stateAt 1#3 65#7 0#64 []) 1#3 ∧ (stateAt 1#3 65#7 0#64 []).STEP = 65#7) := by
  unfold rowAt ControlInv
  decide

/-- The rows of `DONE`, in order. -/
theorem witness_TransitionTable_done :
    (rowAt (stateAt 4#3 0#7 0#64 []) 4#3 ∧
      acceptedCommand (stateAt 4#3 0#7 0#64 []) = none) ∧
    (rowAt (stateAt 4#3 0#7 0#64 [offer 0x0ff#10]) 4#3 ∧
      acceptedCommand (stateAt 4#3 0#7 0#64 [offer 0x0ff#10]) = some .init) ∧
    (rowAt (stateAt 4#3 0#7 0#64 [offer 0x141#10]) 4#3 ∧
      acceptedCommand (stateAt 4#3 0#7 0#64 [offer 0x141#10]) = some (.data 0x41#8) ∧
      Instr.data 0x41#8 ≠ .init) := by
  unfold rowAt ControlInv
  decide

theorem witness_ResetEdgeWrites : (nextPins (stateAt 7#3 127#7 1#64 [assertReset])).rst = true := by decide

theorem witness_OutputsAfterReset :
    ∃ t, (nextPins (stateAt 4#3 0#7 0#64 [assertReset])).rst = true ∧ step (stateAt 4#3 0#7 0#64 [assertReset]) = .next t :=
  ⟨_, by decide, rfl⟩

theorem witness_EveryStepKeepsTheInvariant : StateInv State.reset ∧ StateInv (stateAt 1#3 65#7 0x1f8#64 []) := by
  unfold StateInv ControlInv LengthInv
  decide

theorem witness_InitStartsANewMessage :
    (stateAt 0#3 0#7 0x18#64 []).PH = Config.phAbsorb ∧ (stateAt 4#3 0#7 0x18#64 []).PH = Config.phDone := by decide

/-- The fill indices 0, 62 and 63, and `DONE`. -/
theorem witness_DataAppendsOneByte :
    (fillIndex (stateAt 0#3 0#7 0#64 []).LEN).toNat ≠ 63 ∧ (fillIndex (stateAt 0#3 0#7 0x1f0#64 []).LEN).toNat ≠ 63 ∧
      (fillIndex (stateAt 0#3 0#7 0x1f8#64 []).LEN).toNat = 63 ∧ (stateAt 0#3 0#7 0x1f8#64 []).PH = Config.phAbsorb ∧
      (stateAt 4#3 0#7 0#64 []).PH = Config.phDone := by decide

theorem witness_FinalEntersPadding : State.reset.PH = Config.phAbsorb := by decide

theorem witness_RsvdRaisesProtocolError :
    State.reset.PH = Config.phAbsorb ∧ (stateAt 4#3 0#7 0#64 []).PH = Config.phDone := by decide

theorem witness_DoneDropsEveryCommandButInit : (stateAt 4#3 0#7 0x18#64 []).PH = Config.phDone := by decide

theorem witness_CommandWaitsWhileNotReady :
    cmdReady (stateAt 1#3 0#7 0#64 []) = false ∧ cmdReady (stateAt 2#3 0#7 0#64 []) = false ∧
      cmdReady (stateAt 3#3 0#7 0#64 []) = false := by decide

/-- Another lane of the same word, a word that is not the byte's, and a buffer with the same bytes. -/
theorem witness_ByteWriteChangesOneLane :
    ((62 : Fin 64) ≠ 63) ∧ ((14 : Fin 16).val ≠ (63 : Fin 64).val / 4) ∧ (∀ i, readByte allA i = readByte allA i) :=
  ⟨by decide, by decide, fun _ => rfl⟩

/-- `DATA` at a full buffer away from lane 63, `DATA` in `DONE` at the fill index itself, `PADF` below the fill index, and `LOAD`. -/
theorem witness_BufferFrame :
    (∃ t, exec (.data 0x64#8) (stateAt 0#3 0#7 0x1f8#64 []) = .next t) ∧ (62 : Fin 64) ≠ fillAddr 0x1f8#64 ∧
      (∃ t, exec (.data 0x64#8) (stateAt 4#3 0#7 0x1f8#64 []) = .next t) ∧ (stateAt 4#3 0#7 0x1f8#64 []).PH ≠ Config.phAbsorb ∧
      (∃ t, exec .padf (stateAt 2#3 0#7 0x1c0#64 []) = .next t) ∧ (55 : Fin 64).val < (fillIndex 0x1c0#64).toNat ∧
      (∃ t, exec .load (stateAt 1#3 0#7 0#64 []) = .next t) ∧ (∃ t, exec .padl (stateAt 3#3 0#7 0#64 []) = .next t) :=
  ⟨⟨_, rfl⟩, by decide, ⟨_, rfl⟩, by decide, ⟨_, rfl⟩, by decide, ⟨_, rfl⟩, ⟨_, rfl⟩⟩

theorem witness_PadlFormatsTheLengthBlock : (0 : Fin 16).val < 14 ∧ (13 : Fin 16).val < 14 := by decide

theorem witness_PadAndItsLength : (55 + 1 + 0) % 64 = 56 ∧ (56 + 1 + 63) % 64 = 56 := by decide

theorem witness_BlocksRoundTrip :
    (blocksOf (List.replicate 64 0x61#8))[0]? = some allA ∧
    ([] : List Byte).length % 64 = 0 ∧ (List.replicate 64 0x61#8).length % 64 = 0 ∧ (List.replicate 63 0x61#8).length % 64 ≠ 0 := by
  decide +kernel

theorem witness_RotatorMovesBitsCircularly : 31 < 32 ∧ 1 ≤ (1#5).toNat ∧ 1 ≤ (31#5).toNat := by decide

theorem witness_RotatorLosesNoBit :
    (0#5).toNat = (32 - (0#5).toNat) % 32 ∧ (25#5).toNat = (32 - (7#5).toNat) % 32 := by decide

theorem witness_SixtySixEdgesCompressTheBlock :
    (stateAt 1#3 0#7 0#64 []).PH = Config.phComp ∧ (stateAt 1#3 0#7 0#64 []).STEP = 0#7 ∧
      returnLegal (stateAt 1#3 0#7 0#64 []).RET = true ∧ NoReset 66 (stateAt 1#3 0#7 0#64 [offer 0x3ff#10]) := by
  unfold NoReset
  decide

theorem witness_RotatingFormIsCompress : 0 ≤ 64 ∧ 64 ≤ 64 ∧ 1 % 4 = 1 ∧ 62 % 4 = 2 ∧ 63 % 4 = 3 := by decide

/-- A micro-operation of `COMP` and one of the padding, each with an offer standing. -/
theorem witness_NotReadyInterlock :
    (∃ t, step (stateAt 1#3 64#7 0#64 [offer 0x161#10]) = .next t) ∧ (∃ t, step (stateAt 2#3 0#7 0#64 [offer 0x161#10]) = .next t) ∧
      cmdReady (stateAt 1#3 64#7 0#64 [offer 0x161#10]) = false ∧ cmdReady (stateAt 2#3 0#7 0#64 [offer 0x161#10]) = false :=
  ⟨⟨_, rfl⟩, ⟨_, rfl⟩, by decide, by decide⟩

/-- The longest wait: `PADF` with n = 63. -/
theorem witness_ReadyAgainWithin134Edges :
    ControlInv (stateAt 2#3 0#7 0x1f8#64 []) ∧ cmdReady (stateAt 2#3 0#7 0x1f8#64 []) = false ∧
      NoReset 134 (stateAt 2#3 0#7 0x1f8#64 []) := by
  unfold ControlInv NoReset
  decide

theorem witness_GeneralRegisterWriters : ∃ t, exec .step64 (stateAt 1#3 64#7 0#64 []) = .next t := ⟨_, rfl⟩

theorem witness_SystemRegisterWriters :
    (∃ t, exec .padf (stateAt 2#3 0#7 0#64 []) = .next t) ∧ ∃ t, exec .final (stateAt 4#3 0#7 0#64 []) = .next t :=
  ⟨⟨_, rfl⟩, ⟨_, rfl⟩⟩

/-- Three edges in `DONE`: a dropped `DATA`, an idle edge, a reserved command. -/
def doneWithOffers : State := stateAt 4#3 0#7 0x18#64 [offer 0x141#10, noOffer, offer 0x300#10]

theorem witness_DigestStaysUntilInitOrReset :
    ControlInv doneWithOffers ∧ doneWithOffers.PH = Config.phDone ∧ NoReset 3 doneWithOffers ∧
      Instr.init ∉ acceptedTrace 3 doneWithOffers := by
  unfold ControlInv NoReset
  decide

/-- The three causes, and an edge with none of them. -/
theorem witness_ProtocolErrorCausesAndEffect :
    acceptedCommand (stateAt 0#3 0#7 0#64 [offer 0x3ff#10]) = some .rsvd ∧
      acceptedCommand (stateAt 4#3 0#7 0#64 [offer 0x200#10]) = some .final ∧
      acceptedCommand (stateAt 4#3 0#7 0#64 [offer 0x141#10]) = some (.data 0x41#8) ∧
      acceptedCommand (stateAt 4#3 0#7 0#64 [offer 0x000#10]) = some .init ∧
      (nextPins (stateAt 0#3 0#7 0#64 [offer 0x3ff#10])).rst = false ∧ ControlInv (stateAt 0#3 0#7 0#64 [offer 0x3ff#10]) ∧
      ControlInv (stateAt 4#3 0#7 0#64 [offer 0x141#10]) := by
  unfold ControlInv
  decide

theorem witness_ErrIsStickyAndReadByNothing :
    (∃ t, run 2 { stateAt 0#3 0#7 0#64 [offer 0x161#10, offer 0x000#10] with ERR := true } = .next t) ∧
      NoReset 2 (stateAt 0#3 0#7 0#64 [offer 0x161#10, offer 0x000#10]) ∧
      (∃ t, step (stateAt 4#3 0#7 0#64 [assertReset]) = .next t) ∧ (nextPins (stateAt 4#3 0#7 0#64 [assertReset])).rst = true := by
  refine ⟨⟨_, rfl⟩, ?_, ⟨_, rfl⟩, by decide⟩
  unfold NoReset
  decide

/-- Two states that differ in the working registers and in every byte from the fill index on. -/
theorem witness_UnspecifiedValuesAreNeverObserved :
    ControlInv State.reset ∧ Agree State.reset { State.reset with X := allA, a := 7#32 } ∧
      State.reset ≠ { State.reset with X := allA, a := 7#32 } ∧
      (stateAt 0#3 0#7 0#64 [assertReset]).inputs = { stateAt 1#3 5#7 8#64 [assertReset] with X := allA }.inputs ∧
      (nextPins (stateAt 0#3 0#7 0#64 [assertReset])).rst = true := by
  refine ⟨controlInv_stateAt 0#3 0#7 0#64 [] (by decide), ⟨rfl, rfl, rfl, rfl, rfl, rfl, rfl, ?_, ?_⟩, by decide, rfl, by decide⟩
  · intro j hj
    simp [liveByte, State.reset, fillIndex] at hj
  · intro h
    exact absurd h.1 (by decide)

/-- The commands with the shortest and with the longest wait: `INIT`, and `FINAL` with n = 63. -/
theorem witness_CommandLevelMachineIsImplemented :
    (∃ t, step (stateAt 4#3 0#7 0#64 [assertReset]) = .next t) ∧
      acceptedCommand (stateAt 4#3 0#7 0#64 [offer 0x000#10]) = some .init ∧
      acceptedCommand (stateAt 0#3 0#7 0x1f8#64 [offer 0x200#10]) = some .final ∧
      cmdReady (stateAt 0#3 0#7 0x1f8#64 [offer 0x200#10]) = true ∧ ControlInv (stateAt 0#3 0#7 0x1f8#64 [offer 0x200#10]) ∧
      NoReset 135 (stateAt 0#3 0#7 0x1f8#64 [offer 0x200#10]) := by
  refine ⟨⟨_, rfl⟩, ?_⟩
  unfold ControlInv NoReset
  decide

/-- The message "a" in two edges, and that the run goes on for ever without a further command. -/
def messageA : State := stateAt 0#3 0#7 0#64 [offer 0x161#10, offer 0x200#10]

theorem witness_DigestOfEveryMessage :
    ControlInv messageA ∧ messageA.PH = Config.phAbsorb ∧ messageA.LEN = 0#64 ∧ chainOf messageA = iv ∧ NoReset 2 messageA ∧
      acceptedTrace 2 messageA = [0x61#8].map Instr.data ++ [Instr.final] := by
  unfold ControlInv NoReset
  decide

/-- The empty message too: `FINAL` alone. -/
theorem witness_DigestOfEveryMessage_empty :
    acceptedTrace 1 (stateAt 0#3 0#7 0#64 [offer 0x200#10]) = ([] : List Byte).map Instr.data ++ [Instr.final] ∧
      NoReset 136 (stateAt 0#3 0#7 0#64 [offer 0x200#10]) ∧
      acceptedTrace 136 (stateAt 0#3 0#7 0#64 [offer 0x200#10]) = ([] : List Byte).map Instr.data ++ [Instr.final] := by
  unfold NoReset
  decide +kernel

end Sys2Proof.Tests
end

/-!
PROOFS. The block buffer (20_memory.md): the words of `BUF` as numbers of their bytes.
-/

namespace Sys2Proof.Machine

/-- A byte put below a bit string is the low digit of its number, base `2 ^ 8`. -/
theorem toNat_append_byte {w : Nat} (x : BitVec w) (b : Byte) : (x ++ b).toNat = b.toNat + 2 ^ 8 * x.toNat := by
  rw [BitVec.toNat_append, ← Nat.shiftLeft_add_eq_or_of_lt b.isLt, Nat.shiftLeft_eq]
  omega

/-- `UNLE32` as a number: its bytes are its digits base `2 ^ 8`, the first the lowest (00_scope.md R15). -/
theorem toNat_unle32 (b0 b1 b2 b3 : Byte) :
    (unle32 b0 b1 b2 b3).toNat = b0.toNat + 2 ^ 8 * b1.toNat + 2 ^ 16 * b2.toNat + 2 ^ 24 * b3.toNat := by
  simp only [unle32, toNat_append_byte]
  omega

/-- Settles O22: the lanes are the definition of a byte read; a word is the packing of its four bytes
(`get_eq_unle32`), and a packing is the number with these digits (`toNat_unle32`). -/
theorem bufferIsLittleEndian : Obligations.BufferIsLittleEndian := by
  intro x
  constructor
  · intro j
    rw [readByte, wordByte]
  · intro k
    rw [get_eq_unle32 x k, toNat_unle32]

end Sys2Proof.Machine

/-!
PROOFS. The encoding (30_encoding.md): the operation code of a command word, and the instruction of one edge.
-/

namespace Sys2Proof

/-- A command word is its two fields side by side (R102). -/
theorem commandOp_append_commandByte (w : BitVec 10) : commandOp w ++ commandByte w = w := by
  rw [commandOp, commandByte, BitVec.extractLsb'_append_extractLsb'_eq_extractLsb' (by rfl), BitVec.extractLsb'_eq_self]

/-- The mask of the operation-code map keeps the field `op` and clears the payload (R102, R103). -/
theorem and_opMask (w : BitVec 10) : w &&& 0x300#10 = commandOp w ++ 0#8 := by
  have hmask : 0x300#10 = BitVec.allOnes 2 ++ 0#8 := rfl
  calc w &&& 0x300#10
      = (commandOp w ++ commandByte w) &&& (BitVec.allOnes 2 ++ 0#8) := by rw [commandOp_append_commandByte, hmask]
    _ = commandOp w ++ 0#8 := by rw [BitVec.and_append, BitVec.and_allOnes, BitVec.and_zero]

/-- A word meets the match column of a row exactly when its field `op` is that of the row. -/
theorem and_opMask_eq_iff (w : BitVec 10) (op : BitVec 2) : w &&& 0x300#10 = op ++ 0#8 ↔ commandOp w = op := by
  rw [and_opMask, BitVec.append_left_inj]

theorem commandOp_cases (w : BitVec 10) :
    commandOp w = 0#2 ∨ commandOp w = 1#2 ∨ commandOp w = 2#2 ∨ commandOp w = 3#2 := by
  generalize commandOp w = op
  revert op; decide

/-! The decoder reads a row from the field `op` alone, and the byte of `DATA` from the field `byte`. -/

theorem decodeCommand_eq_init_iff (w : BitVec 10) : decodeCommand w = .init ↔ commandOp w = 0#2 := by
  rcases commandOp_cases w with h | h | h | h <;> simp [decodeCommand, h]

theorem decodeCommand_eq_data_iff (w : BitVec 10) :
    decodeCommand w = .data (commandByte w) ↔ commandOp w = 1#2 := by
  rcases commandOp_cases w with h | h | h | h <;> simp [decodeCommand, h]

theorem decodeCommand_eq_final_iff (w : BitVec 10) : decodeCommand w = .final ↔ commandOp w = 2#2 := by
  rcases commandOp_cases w with h | h | h | h <;> simp [decodeCommand, h]

theorem decodeCommand_eq_rsvd_iff (w : BitVec 10) : decodeCommand w = .rsvd ↔ commandOp w = 3#2 := by
  rcases commandOp_cases w with h | h | h | h <;> simp [decodeCommand, h]

/-- Settles O4: match column and decoder both read the field `op`, which has exactly the four values of the rows. -/
theorem commandWordsMatchOneRow : Obligations.CommandWordsMatchOneRow := by
  intro w
  refine ⟨(and_opMask_eq_iff w 0#2).trans (decodeCommand_eq_init_iff w).symm,
    (and_opMask_eq_iff w 1#2).trans (decodeCommand_eq_data_iff w).symm,
    (and_opMask_eq_iff w 2#2).trans (decodeCommand_eq_final_iff w).symm,
    (and_opMask_eq_iff w 3#2).trans (decodeCommand_eq_rsvd_iff w).symm,
    w &&& 0x300#10, ⟨?_, rfl⟩, fun m hm => hm.2.symm⟩
  rw [and_opMask]
  rcases commandOp_cases w with h | h | h | h <;> rw [h] <;> decide

end Sys2Proof

namespace Sys2Proof.Machine

variable {s : State}

/-- At a not-ready edge with legal control the selection names a micro-operation (R107). -/
theorem ControlInv.decodeSelector_notReady (hc : ControlInv s) (hr : cmdReady s = false) :
    ∃ i, decodeSelector (selectorWord s.PH s.STEP) = .ok i := by
  rcases hc.place with ⟨hp, -⟩ | ⟨hp, h0⟩ | ⟨hp, h0⟩ | ⟨hp, h0⟩ | ⟨hp, e, he⟩ | ⟨hp, h65⟩
  · rcases hp with hp | hp <;> simp [cmdReady, hp] at hr
  · exact ⟨.padf, by rw [hp, h0, decodeSelector_padf]⟩
  · exact ⟨.padl, by rw [hp, h0, decodeSelector_padl]⟩
  · exact ⟨.load, by rw [hp, h0]; decide⟩
  · exact ⟨stepInstr e, by rw [hp, decodeSelector_comp, he, compOperation_step]⟩
  · exact ⟨.addback, by rw [hp, h65]; decide⟩

/-- Settles O8: legal control has no fault, so an edge without `rst` is the row of its kind (`step_command`, `step_idle`,
`step_micro`), and at a not-ready edge the selection does name an operation. -/
theorem stepRunsTheDecodedInstruction : Obligations.StepRunsTheDecodedInstruction := by
  intro s hc hrst
  refine ⟨step_command hrst hc.controlFault, step_idle hrst hc.controlFault, fun hr => ?_, rfl⟩
  obtain ⟨i, hi⟩ := hc.decodeSelector_notReady hr
  exact ⟨i, hi, step_micro hrst hc.controlFault hr hi⟩

end Sys2Proof.Machine

/-!
PROOFS. The host commands (40_host_commands.md R135 to R139) in the ready phases.
-/

namespace Sys2Proof.Machine

variable {s : State}

/-- A command with one effect for both ready phases has that effect in either. -/
theorem commandByPhase_ready {f : State → State} (h : s.PH = Config.phAbsorb ∨ s.PH = Config.phDone) :
    commandByPhase f f s = f s := by
  rcases h with h | h
  · exact commandByPhase_absorb h
  · exact commandByPhase_done h

/-- In `DONE` every command but `INIT` is dropped and raises ProtocolError (R139). -/
theorem exec_dropped_of_done {i : Instr} (hp : s.PH = Config.phDone)
    (hi : (∃ v, i = .data v) ∨ i = .final ∨ i = .rsvd) : exec i s = .next (raiseProtocolError s) := by
  rcases hi with ⟨v, rfl⟩ | rfl | rfl
  · rw [exec_data, commandByPhase_done hp]
  · rw [exec_final, commandByPhase_done hp]
  · rw [exec_rsvd, commandByPhase_done hp]

/-- The control unit's test of `DATA` as a number (R341). -/
theorem fillsBuffer_iff (len : BitVec 64) : fillsBuffer len = true ↔ (fillIndex len).toNat = 63 := by
  rw [fillsBuffer, beq_iff_eq, ← BitVec.toNat_inj]
  rfl

/-- Settles O16: `INIT` has the one effect `startMessage` in both ready phases. -/
theorem initStartsANewMessage : Obligations.InitStartsANewMessage := by
  intro s hp
  rw [exec_init, commandByPhase_ready hp]
  rfl

/-- Settles O19: `RSVD` has the one effect `raiseProtocolError` in both ready phases. -/
theorem rsvdRaisesProtocolError : Obligations.RsvdRaisesProtocolError := by
  intro s hp
  rw [exec_rsvd, commandByPhase_ready hp]
  rfl

/-- Settles O17: in `ABSORB` the byte is absorbed, with or without the call as the fill index says; in `DONE` it is
dropped. -/
theorem dataAppendsOneByte : Obligations.DataAppendsOneByte := by
  intro s v
  refine ⟨fun hp hn => ?_, fun hp hn => ?_, fun hp => exec_dropped_of_done hp (.inl ⟨v, rfl⟩)⟩
  · have hfull : fillsBuffer s.LEN = false := Bool.eq_false_iff.mpr (mt (fillsBuffer_iff s.LEN).mp hn)
    rw [exec_data, commandByPhase_absorb hp, absorbByte_of_not_full s v hfull]
    rfl
  · rw [exec_data, commandByPhase_absorb hp, absorbByte_of_full s v ((fillsBuffer_iff s.LEN).mpr hn)]
    rfl

/-- Settles O20: the dropped commands change `ERR` alone, which neither `digest` nor `digest_valid` reads; `INIT` starts a
message from `DONE` as from `ABSORB` (`initStartsANewMessage`). -/
theorem doneDropsEveryCommandButInit : Obligations.DoneDropsEveryCommandButInit := by
  intro s v hp
  refine ⟨fun i hi => ?_, initStartsANewMessage s (.inr hp)⟩
  have hvalid : digestValid (raiseProtocolError s) = true := by simp [digestValid, hp]
  exact ⟨raiseProtocolError s, exec_dropped_of_done hp (hi.imp_left fun h => ⟨v, h⟩), rfl, hp, hvalid, rfl⟩

end Sys2Proof.Machine

/-!
PROOFS. The padding engine (41_padding_engine.md R166, R168).
-/

namespace Sys2Proof.Machine

/-! The byte lanes of `PADF`, region by region. -/

/-- The control unit's test of `PADF` as a number (R341). -/
theorem lengthFits_iff (len : BitVec 64) : lengthFits len = true ↔ (fillIndex len).toNat ≤ 55 := by
  rw [lengthFits, decide_eq_true_iff]

theorem padfLanes_below {len : BitVec 64} {j : Fin 64} (h : j.val < (fillIndex len).toNat) : padfLanes len j = none := by
  rw [padfLanes, if_pos h]

theorem padfLanes_at {len : BitVec 64} {j : Fin 64} (h : j.val = (fillIndex len).toNat) :
    padfLanes len j = some 0x80#8 := by
  rw [padfLanes, if_neg h.not_lt, if_pos h]

theorem padfLanes_above {len : BitVec 64} {j : Fin 64} (h : (fillIndex len).toNat < j.val) :
    padfLanes len j =
      some (if (fillIndex len).toNat ≤ 55 ∧ 56 ≤ j.val then lenByte len (j.val - 56) else 0#8) := by
  simp only [padfLanes, if_neg h.not_gt, if_neg h.ne', lengthFits_iff, apply_ite some]

/-- Settles O25: lane by lane, a byte below the fill index is kept, the one at it is the marker, and one above it is a
length byte where the length field fits and names it, else zero. -/
theorem padfFormatsTheFirstBlock : Obligations.PadfFormatsTheFirstBlock := by
  intro s
  refine ⟨writeLanes s.X (padfLanes s.LEN), ?_, fun j => ?_⟩
  · rw [exec_padf, formatFirst, enterCompression]
    simp only [lengthFits_iff]
  · rw [readByte_writeLanes]
    rcases lt_trichotomy j.val (fillIndex s.LEN).toNat with hbelow | hat | habove
    · rw [padfLanes_below hbelow, if_pos hbelow, Option.getD_none]
    · rw [padfLanes_at hat, if_neg hat.not_lt, if_pos hat, Option.getD_some]
    · rw [padfLanes_above habove, if_neg habove.not_gt, if_neg habove.ne', Option.getD_some, lenByte]

/-! The words of the block `PADL` writes: zeros, then the length field. -/

theorem unle32_zero : unle32 0#8 0#8 0#8 0#8 = 0#32 := rfl

/-- Four consecutive bytes of the length field pack to the bits of `LEN` they are cut from (R163, R15). -/
theorem unle32_lenByte (len : BitVec 64) (q : Nat) :
    unle32 (lenByte len q) (lenByte len (q + 1)) (lenByte len (q + 2)) (lenByte len (q + 3)) =
      len.extractLsb' (8 * q) 32 := by
  rw [unle32, lenByte, lenByte, lenByte, lenByte, BitVec.extractLsb'_append_extractLsb'_eq_extractLsb' (by omega),
    BitVec.extractLsb'_append_extractLsb'_eq_extractLsb' (by omega),
    BitVec.extractLsb'_append_extractLsb'_eq_extractLsb' (by omega)]

theorem padlLanes_low (len : BitVec 64) {j : Fin 64} (h : j.val < 56) : padlLanes len j = some 0#8 := by
  rw [padlLanes, if_neg h.not_ge]

theorem get_writeLanes_padlLanes_low (x : Buffer) (len : BitVec 64) {k : Fin 16} (hk : k.val < 14) :
    (writeLanes x (padlLanes len)).get k = 0#32 := by
  have hzero (l : Fin 4) : padlLanes len (byteAddr k l) = some 0#8 :=
    padlLanes_low len (by simp only [byteAddr]; omega)
  rw [get_writeLanes, hzero, hzero, hzero, hzero]
  exact unle32_zero

theorem padlLanes_byteAddr_high (len : BitVec 64) {k : Fin 16} (hk : 14 ≤ k.val) (l : Fin 4) :
    padlLanes len (byteAddr k l) = some (lenByte len (4 * (k.val - 14) + l.val)) := by
  have hlen : 56 ≤ (byteAddr k l).val := by simp only [byteAddr]; omega
  have hq : (byteAddr k l).val - 56 = 4 * (k.val - 14) + l.val := by simp only [byteAddr]; omega
  rw [padlLanes, if_pos hlen, hq]

theorem get_writeLanes_padlLanes_high (x : Buffer) (len : BitVec 64) {k : Fin 16} (hk : 14 ≤ k.val) :
    (writeLanes x (padlLanes len)).get k = len.extractLsb' (32 * (k.val - 14)) 32 := by
  have hbits : 8 * (4 * (k.val - 14)) = 32 * (k.val - 14) := by omega
  rw [get_writeLanes, ← hbits, ← unle32_lenByte]
  simp only [padlLanes_byteAddr_high len hk, Option.getD_some]
  rfl

/-- Settles O26: words 0 to 13 pack zero lanes, words 14 and 15 the bytes of the two halves of `LEN`. -/
theorem padlFormatsTheLengthBlock : Obligations.PadlFormatsTheLengthBlock := by
  intro s
  refine ⟨writeLanes s.X (padlLanes s.LEN), ?_, fun k hk => ?_, ?_, ?_⟩
  · rw [exec_padl, formatLast, enterCompression]
  · exact get_writeLanes_padlLanes_low s.X s.LEN hk
  · exact get_writeLanes_padlLanes_high s.X s.LEN (k := 14) (by decide)
  · exact get_writeLanes_padlLanes_high s.X s.LEN (k := 15) (by decide)

end Sys2Proof.Machine

/-!
PROOFS. The barrel shifter (43_datapath_units.md R203).
-/

namespace Sys2Proof.Machine

/-- A bit wrapped round from the top and a bit moved up both come from position `(j - s) mod 32`. -/
theorem getLsbD_rotl32 (x : Word) (s : BitVec 5) {j : Nat} (hj : j < 32) :
    (rotl32 x s).getLsbD j = x.getLsbD ((j + 32 - s.toNat) % 32) := by
  have hs : s.toNat < 32 := s.isLt
  rw [rotl32, BitVec.getLsbD_rotateLeft_of_le hs]
  rcases lt_or_ge j s.toNat with hwrap | hup
  · have hpos : (j + 32 - s.toNat) % 32 = 32 - s.toNat + j := by omega
    simp [hwrap, hpos]
  · have hpos : (j + 32 - s.toNat) % 32 = j - s.toNat := by omega
    simp [hup.not_gt, hj, hpos]

/-- The formula of R203. Read with `x div 2^32 = 0` it holds at amount 0 too (R204). -/
theorem toNat_rotl32 (x : Word) (s : BitVec 5) :
    (rotl32 x s).toNat = x.toNat * 2 ^ s.toNat % 2 ^ 32 + x.toNat / 2 ^ (32 - s.toNat) := by
  have hs : s.toNat < 32 := s.isLt
  have hsplit : 2 ^ 32 = 2 ^ (32 - s.toNat) * 2 ^ s.toNat := by
    rw [← pow_add, Nat.sub_add_cancel hs.le]
  -- The part shifted up has its low `s` bits clear, and the part shifted out fits in them: their bitwise or is their sum.
  have hup : x.toNat * 2 ^ s.toNat % 2 ^ 32 = (x.toNat % 2 ^ (32 - s.toNat)) <<< s.toNat := by
    rw [hsplit, Nat.mul_mod_mul_right, Nat.shiftLeft_eq]
  have hout : x.toNat / 2 ^ (32 - s.toNat) < 2 ^ s.toNat :=
    Nat.div_lt_of_lt_mul (hsplit ▸ x.isLt)
  rw [rotl32, BitVec.toNat_rotateLeft, Nat.mod_eq_of_lt hs, Nat.shiftLeft_eq, Nat.shiftRight_eq_div_pow, hup,
    Nat.shiftLeft_add_eq_or_of_lt hout]

/-- Settles O31: the bit rule and the power formula of the shifter. -/
theorem rotatorMovesBitsCircularly : Obligations.RotatorMovesBitsCircularly := by
  intro x s
  exact ⟨fun _ hj => getLsbD_rotl32 x s hj, fun _ => toNat_rotl32 x s⟩

end Sys2Proof.Machine

/-!
PROOFS. The bitwise unit and the round functions (43_datapath_units.md R205 to R208, R210 to R213, R216).
-/

namespace Sys2Proof.Machine

section

variable (x y z : Word) {j : Nat}

@[simp] theorem getLsbD_and32 : (and32 x y).getLsbD j = (x.getLsbD j && y.getLsbD j) := BitVec.getLsbD_and

@[simp] theorem getLsbD_or32 : (or32 x y).getLsbD j = (x.getLsbD j || y.getLsbD j) := BitVec.getLsbD_or

@[simp] theorem getLsbD_xor32 : (xor32 x y).getLsbD j = (x.getLsbD j != y.getLsbD j) := BitVec.getLsbD_xor

/-- Every bit of the word is inverted; beyond bit 31 there is none (R208). -/
@[simp] theorem getLsbD_not32 (hj : j < 32) : (not32 x).getLsbD j = !x.getLsbD j := by
  rw [not32, BitVec.getLsbD_not, decide_eq_true hj, Bool.true_and]

theorem toNat_not32 : (not32 x).toNat = 0xffffffff - x.toNat := BitVec.toNat_not

theorem not32_eq_xor32 : not32 x = xor32 x 0xffffffff#32 := BitVec.xor_allOnes.symm

/-! The function selector (R216). -/

@[simp] theorem fsel_zero : fsel 0#2 x y z = roundF x y z := rfl

@[simp] theorem fsel_one : fsel 1#2 x y z = roundG x y z := rfl

@[simp] theorem fsel_two : fsel 2#2 x y z = roundH x y z := rfl

@[simp] theorem fsel_three : fsel 3#2 x y z = roundI x y z := rfl

/-! The round functions at one bit; F and G are decided by the bit that selects. -/

theorem getLsbD_roundF (hj : j < 32) :
    (roundF x y z).getLsbD j = if x.getLsbD j then y.getLsbD j else z.getLsbD j := by
  rw [roundF, getLsbD_or32, getLsbD_and32, getLsbD_and32, getLsbD_not32 x hj]
  cases x.getLsbD j <;> simp

theorem getLsbD_roundG (hj : j < 32) :
    (roundG x y z).getLsbD j = if z.getLsbD j then x.getLsbD j else y.getLsbD j := by
  rw [roundG, getLsbD_or32, getLsbD_and32, getLsbD_and32, getLsbD_not32 z hj]
  cases z.getLsbD j <;> simp

theorem getLsbD_roundH :
    (roundH x y z).getLsbD j = ((x.getLsbD j != y.getLsbD j) != z.getLsbD j) := by
  rw [roundH, getLsbD_xor32, getLsbD_xor32]

theorem getLsbD_roundI (hj : j < 32) :
    (roundI x y z).getLsbD j = (y.getLsbD j != (x.getLsbD j || !z.getLsbD j)) := by
  rw [roundI, getLsbD_xor32, getLsbD_or32, getLsbD_not32 z hj]

end

/-- Settles O33: each unit at one bit, the two forms of `NOT32`, and the round functions as the selector names them. -/
theorem roundFunctionsBitByBit : Obligations.RoundFunctionsBitByBit := by
  intro x y z j hj
  rw [fsel_zero, fsel_one, fsel_two, fsel_three]
  exact ⟨getLsbD_and32 x y, getLsbD_or32 x y, getLsbD_xor32 x y, getLsbD_not32 x hj, toNat_not32 x, not32_eq_xor32 x,
    getLsbD_roundF x y z hj, getLsbD_roundG x y z hj, getLsbD_roundH x y z, getLsbD_roundI x y z hj, rfl, rfl, rfl, rfl⟩

end Sys2Proof.Machine

/-!
PROOFS. The schedule ROM (44_constant_rom_and_schedule.md R242 to R245). Its content is literals (R241), so each formula for a
field is compared with the table entry by entry.
-/

namespace Sys2Proof.Machine

/-- The message-word index of ROM entry `e` by the formula of its round (R243, with `e % 16` for `j - 1`). -/
def scheduleIndex (e : Fin 64) : Nat :=
  match e.val / 16 with
  | 0 => e.val % 16
  | 1 => (1 + 5 * (e.val % 16)) % 16
  | 2 => (5 + 3 * (e.val % 16)) % 16
  | _ => (7 * (e.val % 16)) % 16

/-- The rotation amount of ROM entry `e`: the four amounts of its round in turn (R244). -/
def scheduleAmount (e : Fin 64) : Nat :=
  (match e.val / 16 with
    | 0 => [7, 12, 17, 22]
    | 1 => [5, 9, 14, 20]
    | 2 => [4, 11, 16, 23]
    | _ => [6, 10, 15, 21]).getD (e.val % 4) 0

/-- R242: the round function is that of the round. -/
theorem toNat_swFsel_sromAt : ∀ e : Fin 64, (swFsel (sromAt e)).toNat = e.val / 16 := by decide

/-- R243. -/
theorem toNat_swK_sromAt : ∀ e : Fin 64, (swK (sromAt e)).toNat = scheduleIndex e := by decide

/-- R244. -/
theorem toNat_swS_sromAt : ∀ e : Fin 64, (swS (sromAt e)).toNat = scheduleAmount e := by decide

/-- R245: the destinations rotate with period 4, whatever the round. -/
theorem dstOf_eq_getD (e : Fin 64) : dstOf e = [Dst.a, Dst.d, Dst.c, Dst.b].getD (e.val % 4) Dst.a := by
  have hmod : e.val % 4 = 0 ∨ e.val % 4 = 1 ∨ e.val % 4 = 2 ∨ e.val % 4 = 3 := by omega
  rcases hmod with h | h | h | h <;> simp [dstOf, h]

/-- Settles O35: one rule for each field of the schedule word, and the rotation of the destinations. -/
theorem scheduleFollowsTheFormulas : Obligations.ScheduleFollowsTheFormulas := by
  intro e
  exact ⟨toNat_swFsel_sromAt e, toNat_swK_sromAt e, toNat_swS_sromAt e, dstOf_eq_getD e⟩

end Sys2Proof.Machine

/-!
PROOFS. The micro-operations of the sequencer (45_compression_sequencer.md R262 to R330): LOAD, the 64 steps by their
destination, ADDBACK.
-/

namespace Sys2Proof.Machine

variable (s : State)

/-! A step by the quarter its ROM entry is in (R109, R263): the destination takes the role of a, the registers after it, in
the cyclic order a, b, c, d, the roles of b, c, d. -/

theorem exec_stepInstr_a (e : Fin 64) (h : e.val % 4 = 0) :
    exec (stepInstr e) s =
      .next { s with a := stepResult e s.X s.a s.b s.c s.d, STEP := BitVec.ofNat 7 (e.val + 2) } := by
  have hdst : dstOf e = .a := by simp [dstOf, h]
  rw [exec_stepInstr, sequencerStep, hdst]

theorem exec_stepInstr_d (e : Fin 64) (h : e.val % 4 = 1) :
    exec (stepInstr e) s =
      .next { s with d := stepResult e s.X s.d s.a s.b s.c, STEP := BitVec.ofNat 7 (e.val + 2) } := by
  have hdst : dstOf e = .d := by simp [dstOf, h]
  rw [exec_stepInstr, sequencerStep, hdst]

theorem exec_stepInstr_c (e : Fin 64) (h : e.val % 4 = 2) :
    exec (stepInstr e) s =
      .next { s with c := stepResult e s.X s.c s.d s.a s.b, STEP := BitVec.ofNat 7 (e.val + 2) } := by
  have hdst : dstOf e = .c := by simp [dstOf, h]
  rw [exec_stepInstr, sequencerStep, hdst]

theorem exec_stepInstr_b (e : Fin 64) (h : e.val % 4 = 3) :
    exec (stepInstr e) s =
      .next { s with b := stepResult e s.X s.b s.c s.d s.a, STEP := BitVec.ofNat 7 (e.val + 2) } := by
  have hdst : dstOf e = .b := by simp [dstOf, h]
  rw [exec_stepInstr, sequencerStep, hdst]

/-- Settles O46: in each quarter of the steps the template's other three registers keep their values. -/
theorem everyStepFollowsTheTemplate : Obligations.EveryStepFollowsTheTemplate := by
  intro e s
  have hmod : e.val % 4 = 0 ∨ e.val % 4 = 1 ∨ e.val % 4 = 2 ∨ e.val % 4 = 3 := by omega
  rcases hmod with h | h | h | h
  · exact ⟨_, exec_stepInstr_a s e h, by simp [h, stepResult, readWord]⟩
  · exact ⟨_, exec_stepInstr_d s e h, by simp [h, stepResult, readWord]⟩
  · exact ⟨_, exec_stepInstr_c s e h, by simp [h, stepResult, readWord]⟩
  · exact ⟨_, exec_stepInstr_b s e h, by simp [h, stepResult, readWord]⟩

/-- Settles O37: the update of `loadWorking`. -/
theorem loadCopiesTheChainingRegisters : Obligations.LoadCopiesTheChainingRegisters := by
  intro s
  rw [exec_load, loadWorking]

/-- Settles O47: the update of `addBackReturn`. -/
theorem addbackFeedsForwardAndReturns : Obligations.AddbackFeedsForwardAndReturns := by
  intro s
  rw [exec_addback, addBackReturn]

/-! The 64 steps with the literals of their rules: `STEP i` is the step of ROM entry `i - 1`, and the ROM entries evaluate to
the literals. -/

/-- Settles O38: ROM entries 0 to 7. -/
theorem steps1To8WriteOneWorkingRegister : Obligations.Steps1To8WriteOneWorkingRegister := fun s =>
  ⟨exec_stepInstr_a s 0 rfl, exec_stepInstr_d s 1 rfl, exec_stepInstr_c s 2 rfl, exec_stepInstr_b s 3 rfl,
    exec_stepInstr_a s 4 rfl, exec_stepInstr_d s 5 rfl, exec_stepInstr_c s 6 rfl, exec_stepInstr_b s 7 rfl⟩

/-- Settles O39: ROM entries 8 to 15. -/
theorem steps9To16WriteOneWorkingRegister : Obligations.Steps9To16WriteOneWorkingRegister := fun s =>
  ⟨exec_stepInstr_a s 8 rfl, exec_stepInstr_d s 9 rfl, exec_stepInstr_c s 10 rfl, exec_stepInstr_b s 11 rfl,
    exec_stepInstr_a s 12 rfl, exec_stepInstr_d s 13 rfl, exec_stepInstr_c s 14 rfl, exec_stepInstr_b s 15 rfl⟩

/-- Settles O40: ROM entries 16 to 23. -/
theorem steps17To24WriteOneWorkingRegister : Obligations.Steps17To24WriteOneWorkingRegister := fun s =>
  ⟨exec_stepInstr_a s 16 rfl, exec_stepInstr_d s 17 rfl, exec_stepInstr_c s 18 rfl, exec_stepInstr_b s 19 rfl,
    exec_stepInstr_a s 20 rfl, exec_stepInstr_d s 21 rfl, exec_stepInstr_c s 22 rfl, exec_stepInstr_b s 23 rfl⟩

/-- Settles O41: ROM entries 24 to 31. -/
theorem steps25To32WriteOneWorkingRegister : Obligations.Steps25To32WriteOneWorkingRegister := fun s =>
  ⟨exec_stepInstr_a s 24 rfl, exec_stepInstr_d s 25 rfl, exec_stepInstr_c s 26 rfl, exec_stepInstr_b s 27 rfl,
    exec_stepInstr_a s 28 rfl, exec_stepInstr_d s 29 rfl, exec_stepInstr_c s 30 rfl, exec_stepInstr_b s 31 rfl⟩

/-- Settles O42: ROM entries 32 to 39. -/
theorem steps33To40WriteOneWorkingRegister : Obligations.Steps33To40WriteOneWorkingRegister := fun s =>
  ⟨exec_stepInstr_a s 32 rfl, exec_stepInstr_d s 33 rfl, exec_stepInstr_c s 34 rfl, exec_stepInstr_b s 35 rfl,
    exec_stepInstr_a s 36 rfl, exec_stepInstr_d s 37 rfl, exec_stepInstr_c s 38 rfl, exec_stepInstr_b s 39 rfl⟩

/-- Settles O43: ROM entries 40 to 47. -/
theorem steps41To48WriteOneWorkingRegister : Obligations.Steps41To48WriteOneWorkingRegister := fun s =>
  ⟨exec_stepInstr_a s 40 rfl, exec_stepInstr_d s 41 rfl, exec_stepInstr_c s 42 rfl, exec_stepInstr_b s 43 rfl,
    exec_stepInstr_a s 44 rfl, exec_stepInstr_d s 45 rfl, exec_stepInstr_c s 46 rfl, exec_stepInstr_b s 47 rfl⟩

/-- Settles O44: ROM entries 48 to 55. -/
theorem steps49To56WriteOneWorkingRegister : Obligations.Steps49To56WriteOneWorkingRegister := fun s =>
  ⟨exec_stepInstr_a s 48 rfl, exec_stepInstr_d s 49 rfl, exec_stepInstr_c s 50 rfl, exec_stepInstr_b s 51 rfl,
    exec_stepInstr_a s 52 rfl, exec_stepInstr_d s 53 rfl, exec_stepInstr_c s 54 rfl, exec_stepInstr_b s 55 rfl⟩

/-- Settles O45: ROM entries 56 to 63. -/
theorem steps57To64WriteOneWorkingRegister : Obligations.Steps57To64WriteOneWorkingRegister := fun s =>
  ⟨exec_stepInstr_a s 56 rfl, exec_stepInstr_d s 57 rfl, exec_stepInstr_c s 58 rfl, exec_stepInstr_b s 59 rfl,
    exec_stepInstr_a s 60 rfl, exec_stepInstr_d s 61 rfl, exec_stepInstr_c s 62 rfl, exec_stepInstr_b s 63 rfl⟩

end Sys2Proof.Machine

/-!
PROOFS. The transition table of the control FSM (45_compression_sequencer.md R340), row by row.
-/

namespace Sys2Proof.Machine

variable {s : State}

/-! The operation of an edge at a ready port, and the command an accepted word can be. -/

theorem ControlInv.step_accepted {i : Instr} (hc : ControlInv s) (h : acceptedCommand s = some i) :
    step s = exec i (consumePins s) := by
  obtain ⟨hrst, hv, hr, rfl⟩ := acceptedCommand_eq_some h
  exact step_command hrst hc.controlFault hr hv

theorem ControlInv.step_notOffered (hc : ControlInv s) (hrst : (nextPins s).rst = false) (hr : cmdReady s = true)
    (h : acceptedCommand s = none) : step s = .next (consumePins s) :=
  step_idle hrst hc.controlFault hr (by simpa [acceptedCommand, hrst, hr] using h)

theorem acceptedCommand_cases {i : Instr} (h : acceptedCommand s = some i) :
    i = .init ∨ (∃ v, i = .data v) ∨ i = .final ∨ i = .rsvd := by
  obtain ⟨-, -, -, rfl⟩ := acceptedCommand_eq_some h
  exact decodeCommand_cases _

/-- Outside `COMP` the step counter is 0 (10_state.md R47 (b)). -/
theorem ControlInv.step_eq_zero (hc : ControlInv s) (hp : s.PH ≠ Config.phComp) : s.STEP = 0#7 := by
  obtain ⟨-, -, hs⟩ := hc
  simpa [stepInPhase, hp] using hs

theorem ControlInv.ret_legal (hc : ControlInv s) : returnLegal s.RET = true := by
  obtain ⟨-, hret, -⟩ := hc
  exact hret

/-! The rows. Rows that differ in the ready phase alone are one lemma. -/

theorem tableRow_reset (hrst : (nextPins s).rst = true) :
    TableRow s (.next (resetEdge (consumePins s))) Config.phAbsorb 0#7 Config.phAbsorb :=
  ⟨step_reset hrst, _, rfl, rfl, rfl, rfl⟩

theorem tableRow_notOffered (hc : ControlInv s) (hrst : (nextPins s).rst = false) (hr : cmdReady s = true)
    (h : acceptedCommand s = none) : TableRow s (.next (consumePins s)) s.PH 0#7 s.RET :=
  ⟨hc.step_notOffered hrst hr h, _, rfl, rfl, (hc.ready hr).2, rfl⟩

theorem tableRow_init (hc : ControlInv s) (h : acceptedCommand s = some .init) :
    TableRow s (exec .init (consumePins s)) Config.phAbsorb 0#7 s.RET := by
  obtain ⟨-, -, hr, -⟩ := acceptedCommand_eq_some h
  obtain ⟨hp, h0⟩ := hc.ready hr
  exact ⟨hc.step_accepted h, startMessage (consumePins s), initStartsANewMessage _ hp, rfl, h0, rfl⟩

/-- A command that raises ProtocolError changes no control register (60_exceptions.md R372). -/
theorem tableRow_protocolError {i : Instr} (hc : ControlInv s) (h : acceptedCommand s = some i)
    (hi : exec i (consumePins s) = .next (raiseProtocolError (consumePins s))) :
    TableRow s (.next { consumePins s with ERR := true }) s.PH 0#7 s.RET := by
  obtain ⟨-, -, hr, -⟩ := acceptedCommand_eq_some h
  exact ⟨(hc.step_accepted h).trans hi, _, rfl, rfl, (hc.ready hr).2, rfl⟩

theorem tableRow_data_stored {v : Byte} (hc : ControlInv s) (hp : s.PH = Config.phAbsorb)
    (h : acceptedCommand s = some (.data v)) (hn : (fillIndex s.LEN).toNat ≠ 63) :
    TableRow s (exec (.data v) (consumePins s)) Config.phAbsorb 0#7 s.RET := by
  have h0 : s.STEP = 0#7 := hc.step_eq_zero (by simp [hp])
  exact ⟨hc.step_accepted h, _, (dataAppendsOneByte (consumePins s) v).1 hp hn, hp, h0, rfl⟩

theorem tableRow_data_fills {v : Byte} (hc : ControlInv s) (hp : s.PH = Config.phAbsorb)
    (h : acceptedCommand s = some (.data v)) (hn : (fillIndex s.LEN).toNat = 63) :
    TableRow s (exec (.data v) (consumePins s)) Config.phComp 0#7 Config.phAbsorb :=
  ⟨hc.step_accepted h, _, (dataAppendsOneByte (consumePins s) v).2.1 hp hn, rfl, rfl, rfl⟩

theorem tableRow_final (hc : ControlInv s) (hp : s.PH = Config.phAbsorb) (h : acceptedCommand s = some .final) :
    TableRow s (exec .final (consumePins s)) Config.phPadf 0#7 s.RET := by
  have hexec : exec .final (consumePins s) = .next (closeMessage (consumePins s)) := by
    rw [exec_final, commandByPhase_absorb (s := consumePins s) hp]
  exact ⟨hc.step_accepted h, _, hexec, rfl, hc.step_eq_zero (by simp [hp]), rfl⟩

theorem tableRow_padf (hc : ControlInv s) (hrst : (nextPins s).rst = false) (hp : s.PH = Config.phPadf) :
    TableRow s (exec .padf (consumePins s)) Config.phComp 0#7
      (if lengthFits s.LEN then Config.phDone else Config.phPadl) :=
  ⟨step_padf hrst hp (hc.step_eq_zero (by simp [hp])), _, exec_padf _, formatFirst_PH _, formatFirst_STEP _, formatFirst_RET _⟩

theorem tableRow_padl (hc : ControlInv s) (hrst : (nextPins s).rst = false) (hp : s.PH = Config.phPadl) :
    TableRow s (exec .padl (consumePins s)) Config.phComp 0#7 Config.phDone :=
  ⟨step_padl hrst hp (hc.step_eq_zero (by simp [hp])), _, exec_padl _, formatLast_PH _, formatLast_STEP _, formatLast_RET _⟩

theorem tableRow_load (hc : ControlInv s) (hrst : (nextPins s).rst = false) (hp : s.PH = Config.phComp)
    (h0 : s.STEP = 0#7) : TableRow s (exec .load (consumePins s)) Config.phComp 1#7 s.RET :=
  ⟨step_load hrst hp hc.ret_legal h0, _, exec_load _, hp, rfl, rfl⟩

theorem tableRow_stepInstr (hc : ControlInv s) (hrst : (nextPins s).rst = false) (hp : s.PH = Config.phComp)
    (e : Fin 64) (he : s.STEP = BitVec.ofNat 7 (e.val + 1)) :
    TableRow s (exec (stepInstr e) (consumePins s)) Config.phComp (BitVec.ofNat 7 (e.val + 2)) s.RET := by
  have hstep : s.STEP.toNat = e.val + 1 := by rw [he, BitVec.toNat_ofNat]; omega
  rw [exec_stepInstr]
  exact ⟨step_stepInstr hrst hp hc.ret_legal e hstep, _, rfl, by simp [hp], by simp, by simp⟩

theorem tableRow_addback (hc : ControlInv s) (hrst : (nextPins s).rst = false) (hp : s.PH = Config.phComp)
    (h65 : s.STEP = 65#7) : TableRow s (exec .addback (consumePins s)) s.RET 0#7 s.RET :=
  ⟨step_addback hrst hp hc.ret_legal h65, _, exec_addback _, rfl, rfl, rfl⟩

/-- Settles O10: the reset row and, without `rst`, the rows of `ABSORB`, `PADF`, `PADL`, `COMP` and `DONE` in turn. -/
theorem transitionTable : Obligations.TransitionTable := by
  intro s hc
  refine ⟨tableRow_reset, fun hrst => ⟨fun hp h => ?absorbIdle, fun _ => tableRow_init hc,
    fun _ hp h hn => tableRow_data_stored hc hp h hn.ne, fun _ => tableRow_data_fills hc, tableRow_final hc,
    fun hp h => ?absorbRsvd, fun hp hn => ?padfFits, fun hp hn => ?padfLong, tableRow_padl hc hrst,
    tableRow_load hc hrst, fun e hp => tableRow_stepInstr hc hrst hp e, tableRow_addback hc hrst,
    fun hp h => ?doneIdle, fun _ => tableRow_init hc, fun i hp h hi => ?doneDropped⟩⟩
  case absorbIdle =>
    exact hp ▸ tableRow_notOffered hc hrst (by simp [cmdReady, hp]) h
  case absorbRsvd =>
    exact hp ▸ tableRow_protocolError hc h (rsvdRaisesProtocolError (consumePins s) (.inl hp))
  case padfFits =>
    simpa only [if_pos ((lengthFits_iff s.LEN).mpr hn)] using tableRow_padf hc hrst hp
  case padfLong =>
    have hlong : ¬ lengthFits s.LEN = true := mt (lengthFits_iff s.LEN).mp (by omega)
    simpa only [if_neg hlong] using tableRow_padf hc hrst hp
  case doneIdle =>
    exact hp ▸ tableRow_notOffered hc hrst (by simp [cmdReady, hp]) h
  case doneDropped =>
    exact hp ▸ tableRow_protocolError hc h
      (exec_dropped_of_done hp ((acceptedCommand_cases h).resolve_left hi))

end Sys2Proof.Machine

/-!
PROOFS. The digest port in `DONE` (46_finalizer.md R353).
-/

namespace Sys2Proof.Machine

variable {s t : State}

theorem acceptedTrace_succ (k : Nat) (h : step s = .next t) :
    acceptedTrace (k + 1) s = (acceptedCommand s).toList ++ acceptedTrace k t := by
  simp [acceptedTrace, h]

/-- An edge in `DONE` without reset and without an accepted `INIT` uses up its sample, and a command accepted at it
raises ProtocolError (R139). -/
theorem step_done (hc : ControlInv s) (hp : s.PH = Config.phDone) (hrst : (nextPins s).rst = false)
    (hi : acceptedCommand s ≠ some .init) :
    step s = .next (consumePins s) ∨ step s = .next (raiseProtocolError (consumePins s)) := by
  cases h : acceptedCommand s with
  | none => exact .inl (hc.step_notOffered hrst (by simp [cmdReady, hp]) h)
  | some i =>
    have hne : i ≠ .init := fun hinit => hi (hinit ▸ h)
    right
    rw [hc.step_accepted h]
    exact exec_dropped_of_done hp ((acceptedCommand_cases h).resolve_left hne)

/-- What such an edge keeps: the control registers and the digest, so that the next edge is again one in `DONE`. -/
theorem step_done_frame (hc : ControlInv s) (hp : s.PH = Config.phDone) (hrst : (nextPins s).rst = false)
    (hi : acceptedCommand s ≠ some .init) :
    ∃ t, step s = .next t ∧ ControlInv t ∧ t.PH = Config.phDone ∧ t.inputs = s.inputs.tail ∧ digest t = digest s := by
  rcases step_done hc hp hrst hi with h | h
  · exact ⟨_, h, hc, hp, rfl, rfl⟩
  · exact ⟨_, h, hc, hp, rfl, rfl⟩

/-- Settles O55, by induction on the number of edges: the first is an edge in `DONE`, which keeps the digest and leads to
a state with the same hypotheses (`step_done_frame`). -/
theorem digestStaysUntilInitOrReset : Obligations.DigestStaysUntilInitOrReset := by
  intro k
  induction k with
  | zero =>
    intro s _ hp _ _
    exact ⟨s, rfl, hp, by simp [digestValid, hp], rfl⟩
  | succ k ih =>
    intro s hc hp hno hni
    obtain ⟨hrst, hno'⟩ := hno.succ
    have hi : acceptedCommand s ≠ some .init := fun h => hni (by simp [acceptedTrace, h])
    obtain ⟨u, hstep, hcu, hpu, hin, hdig⟩ := step_done_frame hc hp hrst hi
    rw [acceptedTrace_succ k hstep, List.mem_append, not_or] at hni
    obtain ⟨-, hni'⟩ := hni
    obtain ⟨t, hrun, hpt, hvalid, hdigt⟩ := ih u hcu hpu (hno' u hin) hni'
    exact ⟨t, (run_succ k hstep).trans hrun, hpt, hvalid, hdigt.trans hdig⟩

end Sys2Proof.Machine

/-!
PROOFS. ProtocolError and the flag `ERR` (60_exceptions.md R372, R373).
-/

namespace Sys2Proof.Machine

variable {s t : State}

/-! The causes of ProtocolError, and the effect of an edge with one and of an edge with none. -/

/-- The cause list of R372: the accepted command is `RSVD`, or `FINAL` or `DATA` in `DONE`. -/
def ProtocolErrorCause (s : State) : Prop :=
  acceptedCommand s = some .rsvd ∨
    (s.PH = Config.phDone ∧ (acceptedCommand s = some .final ∨ ∃ v, acceptedCommand s = some (.data v)))

theorem ControlInv.step_of_cause (hc : ControlInv s) (h : ProtocolErrorCause s) :
    step s = .next (raiseProtocolError (consumePins s)) := by
  rcases h with h | ⟨hp, h | ⟨v, h⟩⟩
  · obtain ⟨-, -, hr, -⟩ := acceptedCommand_eq_some h
    exact (hc.step_accepted h).trans (rsvdRaisesProtocolError _ (hc.ready hr).1)
  · exact (hc.step_accepted h).trans (exec_dropped_of_done hp (.inr (.inl rfl)))
  · exact (hc.step_accepted h).trans (exec_dropped_of_done hp (.inl ⟨v, rfl⟩))

/-- A command keeps `ERR` where its effects in the ready phases do. -/
theorem commandByPhase_ERR {f g : State → State} (hf : (f s).ERR = s.ERR)
    (hg : s.PH = Config.phDone → (g s).ERR = s.ERR) : (commandByPhase f g s).ERR = s.ERR := by
  unfold commandByPhase
  split
  · exact hf
  · split
    · next hp => exact hg hp
    · rfl

theorem exec_accepted_ERR {i : Instr} (h : acceptedCommand s = some i) (hn : ¬ ProtocolErrorCause s)
    (hx : exec i (consumePins s) = .next t) : t.ERR = s.ERR := by
  rcases acceptedCommand_cases h with rfl | ⟨v, rfl⟩ | rfl | rfl
  · rw [exec_init] at hx; cases hx
    exact commandByPhase_ERR rfl fun _ => rfl
  · rw [exec_data] at hx; cases hx
    exact commandByPhase_ERR (absorbByte_ERR _ v) fun hp => absurd (.inr ⟨hp, .inr ⟨v, h⟩⟩) hn
  · rw [exec_final] at hx; cases hx
    exact commandByPhase_ERR rfl fun hp => absurd (.inr ⟨hp, .inl h⟩) hn
  · exact absurd (.inl h) hn

/-- Control without a fault has a row for every edge. -/
theorem ControlInv.step_next (hc : ControlInv s) : ∃ t, step s = .next t := by
  cases hrst : (nextPins s).rst with
  | true => exact ⟨_, step_reset hrst⟩
  | false =>
    cases hr : cmdReady s with
    | false =>
      obtain ⟨i, hi⟩ := hc.decodeSelector_notReady hr
      rw [step_micro hrst hc.controlFault hr hi]
      exact exec_next _ i
    | true =>
      cases h : acceptedCommand s with
      | none => exact ⟨_, hc.step_notOffered hrst hr h⟩
      | some i =>
        rw [hc.step_accepted h]
        exact exec_next _ i

theorem ControlInv.step_ERR_of_not_cause (hc : ControlInv s) (hrst : (nextPins s).rst = false)
    (hn : ¬ ProtocolErrorCause s) (h : step s = .next t) : t.ERR = s.ERR := by
  rcases step_cases hc h with ⟨hreset, -⟩ | ⟨-, -, rfl⟩ | ⟨-, i, hi, hx⟩ | ⟨-, -, rfl⟩ | ⟨-, -, rfl⟩ | ⟨-, -, rfl⟩ |
    ⟨-, e, -, rfl⟩ | ⟨-, -, rfl⟩
  · simp [hrst] at hreset
  · rfl
  · exact exec_accepted_ERR hi hn hx
  · exact formatFirst_ERR _
  · exact formatLast_ERR _
  · exact loadWorking_ERR _
  · exact sequencerStep_ERR _ e
  · exact addBackReturn_ERR _

/-- Settles O56: an edge with a cause runs a command that is `raiseProtocolError` in its phase; one without a cause has a
next state, and none of its events writes `ERR`. -/
theorem protocolErrorCausesAndEffect : Obligations.ProtocolErrorCausesAndEffect := by
  intro s hc hrst cause
  refine ⟨fun h => hc.step_of_cause h, fun hn => ?_⟩
  obtain ⟨t, ht⟩ := hc.step_next
  exact ⟨t, ht, hc.step_ERR_of_not_cause hrst hn ht⟩

/-! Nothing reads `ERR`: every operation answers the same from the state with `ERR` set, but for `ERR`.
`raiseProtocolError s` is that state. -/

theorem raiseProtocolError_of_ERR (h : s.ERR = true) : raiseProtocolError s = s := by
  rw [raiseProtocolError, ← h]

theorem absorbByte_raiseProtocolError (v : Byte) :
    absorbByte v (raiseProtocolError s) = raiseProtocolError (absorbByte v s) := by
  cases h : fillsBuffer s.LEN with
  | true => rw [absorbByte_of_full s v h, absorbByte_of_full (raiseProtocolError s) v h]; rfl
  | false => rw [absorbByte_of_not_full s v h, absorbByte_of_not_full (raiseProtocolError s) v h]; rfl

theorem sequencerStep_raiseProtocolError (e : Fin 64) :
    sequencerStep e (raiseProtocolError s) = raiseProtocolError (sequencerStep e s) := by
  unfold sequencerStep
  cases dstOf e <;> rfl

theorem commandByPhase_raiseProtocolError {f g : State → State}
    (hf : f (raiseProtocolError s) = raiseProtocolError (f s)) (hg : g (raiseProtocolError s) = raiseProtocolError (g s)) :
    commandByPhase f g (raiseProtocolError s) = raiseProtocolError (commandByPhase f g s) := by
  simp only [commandByPhase, raiseProtocolError_PH, hf, hg, apply_ite raiseProtocolError]

theorem exec_raiseProtocolError {i : Instr} (h : exec i s = .next t) :
    exec i (raiseProtocolError s) = .next (raiseProtocolError t) := by
  rcases exec_cases s h with ⟨rfl, rfl⟩ | ⟨v, rfl, rfl⟩ | ⟨rfl, rfl⟩ | ⟨rfl, rfl⟩ | ⟨rfl, rfl⟩ | ⟨rfl, rfl⟩ | ⟨rfl, rfl⟩ |
    ⟨rfl, rfl⟩ | ⟨e, rfl, rfl⟩
  · exact congrArg Host.Outcome.next (commandByPhase_raiseProtocolError rfl rfl)
  · exact congrArg Host.Outcome.next (commandByPhase_raiseProtocolError (absorbByte_raiseProtocolError v) rfl)
  · exact congrArg Host.Outcome.next (commandByPhase_raiseProtocolError rfl rfl)
  · exact congrArg Host.Outcome.next (commandByPhase_raiseProtocolError rfl rfl)
  · rfl
  · rfl
  · rfl
  · rfl
  · rw [exec_stepInstr, sequencerStep_raiseProtocolError]

/-! The same for an edge without `rst` and for a run of them. The event of an edge is selected without `ERR`. -/

theorem dueEvent_raiseProtocolError : dueEvent (raiseProtocolError s) = dueEvent s := rfl

theorem dueEvent_ne_reset (hrst : (nextPins s).rst = false) : dueEvent s ≠ .reset := by
  unfold dueEvent
  split
  · next h => simp [hrst] at h
  · cases controlFault s with
    | some r => simp
    | none => dsimp only; split_ifs <;> simp

/-- An edge without `rst`, whatever the control registers hold: the event is none or an instruction. -/
theorem step_noReset_cases (hrst : (nextPins s).rst = false) (h : step s = .next t) :
    (dueEvent s = .idle ∧ t = consumePins s) ∨
      ∃ f i, dueEvent s = .run f ∧ decode f = .ok i ∧ exec i (consumePins s) = .next t := by
  unfold step at h
  split at h
  · next hev => exact absurd hev (dueEvent_ne_reset hrst)
  · next hev => exact .inl ⟨hev, (Host.Outcome.next.inj h).symm⟩
  · cases h
  · next f hev =>
    split at h
    · next i hd => exact .inr ⟨f, i, hev, hd, h⟩
    · cases h

theorem step_inputs_of_noReset (hrst : (nextPins s).rst = false) (h : step s = .next t) : t.inputs = s.inputs.tail := by
  rcases step_noReset_cases hrst h with ⟨-, rfl⟩ | ⟨f, i, -, -, hx⟩
  · rfl
  · exact (exec_inputs (consumePins s) hx).1

theorem step_raiseProtocolError (hrst : (nextPins s).rst = false) (h : step s = .next t) :
    step (raiseProtocolError s) = .next (raiseProtocolError t) := by
  unfold step
  rw [dueEvent_raiseProtocolError]
  rcases step_noReset_cases hrst h with ⟨hev, rfl⟩ | ⟨f, i, hev, hd, hx⟩
  · rw [hev]; rfl
  · simp only [hev, hd]
    exact exec_raiseProtocolError hx

/-- A run of `k + 1` edges that does not stop is an edge and a run of `k`. -/
theorem exists_step_of_run_succ {k : Nat} (h : run (k + 1) s = .next t) : ∃ u, step s = .next u ∧ run k u = .next t := by
  simp only [run] at h
  split at h
  · next u hu => exact ⟨u, hu, h⟩
  · cases h
  · cases h

theorem run_raiseProtocolError {k : Nat} (hno : NoReset k s) (h : run k s = .next t) :
    run k (raiseProtocolError s) = .next (raiseProtocolError t) := by
  induction k generalizing s with
  | zero => cases h; rfl
  | succ k ih =>
    obtain ⟨u, hstep, hrun⟩ := exists_step_of_run_succ h
    obtain ⟨hrst, hno'⟩ := hno.succ
    rw [run_succ k (step_raiseProtocolError hrst hstep)]
    exact ih (hno' u (step_inputs_of_noReset hrst hstep)) hrun

/-- Where the run from the state with `ERR` set is that from the state itself, so are their ends. -/
theorem run_keeps_ERR {k : Nat} (hno : NoReset k s) (herr : s.ERR = true) (h : run k s = .next t) : t.ERR = true := by
  have hset := run_raiseProtocolError hno h
  rw [raiseProtocolError_of_ERR herr, h] at hset
  rw [Host.Outcome.next.inj hset, raiseProtocolError_ERR]

/-- Settles O57: the run from the state with `ERR` set is the run from the state itself (`run_raiseProtocolError`), which
also makes `ERR` sticky; a reset edge writes 0 to it. -/
theorem errIsStickyAndReadByNothing : Obligations.ErrIsStickyAndReadByNothing := by
  refine ⟨fun k s t hno herr h => ?_, fun s t hrst h => ?_, fun k s t => run_raiseProtocolError⟩
  · exact ⟨run_keeps_ERR hno herr h, run_keeps_ERR hno herr h⟩
  · rw [step_reset hrst] at h
    cases h
    rfl

end Sys2Proof.Machine

/-!
PROOFS. The reset edge (70_reset_and_hazards.md R400).
-/

namespace Sys2Proof.Machine

/-- Settles O11: reset comes before every other event of the edge (`step_reset`), and `resetEdge` is the listed writes. -/
theorem resetEdgeWrites : Obligations.ResetEdgeWrites := by
  intro s hrst
  exact step_reset hrst

end Sys2Proof.Machine

/-!
PROOFS. The encoding (30_encoding.md): decode and encode, and the placing of a table word.
-/

namespace Sys2Proof

/-! The encoder, shape by shape: `STEP (e + 1)` is selected by `COMP` with that step (R107). -/

theorem encode_stepInstr (e : Fin 64) :
    encode (stepInstr e) = .selector (selectorWord Config.phComp (BitVec.ofNat 7 (e.val + 1))) := by
  revert e; decide

theorem toNat_ofNat_step (e : Fin 64) : (BitVec.ofNat 7 (e.val + 1)).toNat = e.val + 1 := by
  rw [BitVec.toNat_ofNat]; omega

@[simp] theorem commandOp_append (op : BitVec 2) (p : Byte) : commandOp (op ++ p) = op := by
  rw [commandOp, BitVec.extractLsb'_append_eq_left]

@[simp] theorem commandByte_append (op : BitVec 2) (p : Byte) : commandByte (op ++ p) = p := by
  rw [commandByte, BitVec.extractLsb'_append_eq_right]

theorem decodeCommand_data (v : Byte) : decodeCommand (1#2 ++ v) = .data v := by
  simp [decodeCommand]

/-- Settles O1: the byte of `DATA` comes back from its field, the selection of a step from its step counter, and the other
seven forms are single words. -/
theorem decodeOfEncodeIsTheInstruction : Obligations.DecodeOfEncodeIsTheInstruction := by
  intro i _
  rcases instr_cases i with rfl | ⟨v, rfl⟩ | rfl | rfl | rfl | rfl | rfl | rfl | ⟨e, rfl⟩
  · rfl
  · exact congrArg Except.ok (decodeCommand_data v)
  · rfl
  · rfl
  · rfl
  · rfl
  · rfl
  · rfl
  · rw [encode_stepInstr, decode, decodeSelector_comp, toNat_ofNat_step, compOperation_step]

/-- Settles O5: the decoder reads the operation code, and the payload for `DATA` alone. -/
theorem payloadMattersOnlyForData : Obligations.PayloadMattersOnlyForData := by
  intro op p q
  refine ⟨fun hop => ?_, decodeCommand_data p⟩
  simp [decodeCommand, hop]

/-- Settles O6: ten closed words. -/
theorem writtenWordsDecode : Obligations.WrittenWordsDecode := by
  unfold Obligations.WrittenWordsDecode
  decide

/-! The selections that name a micro-operation. -/

theorem selectorWord_phase_step (u : BitVec 10) : selectorWord (selectorPhase u) (selectorStep u) = u := by
  rw [selectorWord, selectorPhase, selectorStep, BitVec.extractLsb'_append_extractLsb'_eq_extractLsb' (by rfl),
    BitVec.extractLsb'_eq_self]

/-- The step counters of `COMP` and the operation each names. -/
theorem compOperation_eq_ok {st : BitVec 7} {i : Instr} (h : compOperation st.toNat = .ok i) :
    (i = .load ∧ st = 0#7) ∨ (i = .addback ∧ st = 65#7) ∨ ∃ e : Fin 64, i = stepInstr e ∧ st = BitVec.ofNat 7 (e.val + 1) := by
  unfold compOperation at h
  split at h
  · next h0 => exact .inl ⟨(Except.ok.inj h).symm, BitVec.eq_of_toNat_eq h0⟩
  · split at h
    · next h65 => exact .inr (.inl ⟨(Except.ok.inj h).symm, BitVec.eq_of_toNat_eq h65⟩)
    · split at h
      · next h0 _ hlt =>
        refine .inr (.inr ⟨_, (Except.ok.inj h).symm, BitVec.eq_of_toNat_eq ?_⟩)
        rw [toNat_ofNat_step]
        exact (Nat.sub_add_cancel (Nat.pos_of_ne_zero h0)).symm
      · cases h

/-- A selection that names an operation is the encoding of that operation: in `COMP` its step counter is that of the
operation, in `PADF` and `PADL` it is 0, and no other phase names one. -/
theorem encode_of_decodeSelector {u : BitVec 10} {i : Instr} (h : decodeSelector u = .ok i) : encode i = .selector u := by
  rw [← selectorWord_phase_step u]
  unfold decodeSelector at h
  split at h
  · next hp =>
    rw [hp]
    rcases compOperation_eq_ok h with ⟨rfl, hst⟩ | ⟨rfl, hst⟩ | ⟨e, rfl, hst⟩
    · rw [hst]; rfl
    · rw [hst]; rfl
    · rw [hst, encode_stepInstr]
  · split at h
    · cases h
    · split at h
      · cases h
      · next hst =>
        rw [not_not.mp hst]
        split at h
        · next hp => cases h; rw [hp]; rfl
        · split at h
          · next hp => cases h; rw [hp]; rfl
          · cases h

/-- Settles O2: a selection that decodes is the encoding of the operation it names. -/
theorem selectionsAreUnambiguous : Obligations.SelectionsAreUnambiguous :=
  fun _ _ h => encode_of_decodeSelector h

theorem encode_wellFormed (i : Instr) : (encode i).wellFormed = true := by
  rcases instr_cases i with rfl | ⟨v, rfl⟩ | rfl | rfl | rfl | rfl | rfl | rfl | ⟨e, rfl⟩
  · rfl
  · rfl
  · rfl
  · rfl
  · rfl
  · rfl
  · rfl
  · rfl
  · revert e; decide

theorem compOperation_of_le {n : Nat} (h : n ≤ 65) : ∃ i, compOperation n = .ok i := by
  unfold compOperation
  split
  · exact ⟨_, rfl⟩
  · split
    · exact ⟨_, rfl⟩
    · exact ⟨_, dif_pos (by omega)⟩

/-- A well-formed selection is a row of R107: `COMP` with a step of 0 to 65, or a padding phase with step 0. -/
theorem wellFormed_selector {u : BitVec 10} (h : (Fetched.selector u).wellFormed = true) :
    (selectorPhase u = Config.phComp ∧ (selectorStep u).toNat ≤ 65) ∨
      ((selectorPhase u = Config.phPadf ∨ selectorPhase u = Config.phPadl) ∧ selectorStep u = 0#7) := by
  change (phaseHasMicroOps (selectorPhase u) && stepInPhase (selectorPhase u) (selectorStep u)) = true at h
  generalize selectorPhase u = ph at h ⊢
  simp only [phaseHasMicroOps, Bool.and_eq_true, Bool.or_eq_true, beq_iff_eq] at h
  obtain ⟨(rfl | rfl) | rfl, hstep⟩ := h <;> simpa [stepInPhase] using hstep

theorem decodeSelector_of_wellFormed {u : BitVec 10} (h : (Fetched.selector u).wellFormed = true) :
    ∃ i, decodeSelector u = .ok i := by
  rw [← selectorWord_phase_step u]
  rcases wellFormed_selector h with ⟨hp, hle⟩ | ⟨hp | hp, h0⟩
  · rw [hp, decodeSelector_comp]
    exact compOperation_of_le hle
  · exact ⟨.padf, by rw [hp, h0, decodeSelector_padf]⟩
  · exact ⟨.padl, by rw [hp, h0, decodeSelector_padl]⟩

/-- Settles O3: a form that decodes is the encoding of an instruction or a command word, and a well-formed selection names
the operation of its row. -/
theorem decoderAcceptsExactlyWellFormed : Obligations.DecoderAcceptsExactlyWellFormed := by
  intro f
  cases f with
  | command w => exact ⟨fun _ => rfl, fun _ => ⟨_, rfl⟩⟩
  | selector u =>
    refine ⟨fun ⟨i, hi⟩ => ?_, decodeSelector_of_wellFormed⟩
    rw [← encode_of_decodeSelector hi]
    exact encode_wellFormed i

end Sys2Proof

namespace Sys2Proof.Machine

variable (s : State)

/-! The state a fetched form is placed in, and the edge that follows. -/

theorem cmdReady_placeFetched_command (w : BitVec 10) : cmdReady (placeFetched (.command w) s) = true := by
  by_cases h : s.PH = Config.phDone <;> simp [placeFetched, cmdReady, h]

theorem step_placeFetched_command (w : BitVec 10) :
    step (placeFetched (.command w) s) = exec (decodeCommand w) (consumePins (placeFetched (.command w) s)) := by
  refine step_command rfl (controlFault_eq_none.mpr ?_) (cmdReady_placeFetched_command s w) rfl
  by_cases h : s.PH = Config.phDone <;> simp [placeFetched, stepInPhase, h]

/-- The placed selection is a row of R107, and in `COMP` the link register is made legal with it. -/
theorem controlFault_placeFetched_selector {u : BitVec 10} (h : (Fetched.selector u).wellFormed = true) :
    controlFault (placeFetched (.selector u) s) = none := by
  rw [controlFault_eq_none]
  rcases wellFormed_selector h with ⟨hp, hle⟩ | ⟨hp | hp, h0⟩
  · cases hret : returnLegal s.RET <;> simp [placeFetched, stepInPhase, hp, hle, hret]
    rfl
  · simp [placeFetched, stepInPhase, hp, h0]
  · simp [placeFetched, stepInPhase, hp, h0]

theorem cmdReady_placeFetched_selector {u : BitVec 10} (h : (Fetched.selector u).wellFormed = true) :
    cmdReady (placeFetched (.selector u) s) = false := by
  rcases wellFormed_selector h with ⟨hp, -⟩ | ⟨hp | hp, -⟩ <;> simp [placeFetched, cmdReady, hp]

theorem step_placeFetched_selector {u : BitVec 10} {i : Instr} (h : decodeSelector u = .ok i) :
    step (placeFetched (.selector u) s) = exec i (consumePins (placeFetched (.selector u) s)) := by
  have hwf : (Fetched.selector u).wellFormed = true := by
    rw [← encode_of_decodeSelector h]
    exact encode_wellFormed i
  refine step_micro rfl (controlFault_placeFetched_selector s hwf) (cmdReady_placeFetched_selector s hwf) ?_
  rwa [show selectorWord (placeFetched (.selector u) s).PH (placeFetched (.selector u) s).STEP = u from
    selectorWord_phase_step u]

theorem decodeTableWord_eq_some {nbits w : Nat} {i : Instr} (h : decodeTableWord nbits w = some i) :
    ∃ f, fetchedOfTableWord nbits w = some f ∧ decode f = .ok i := by
  unfold decodeTableWord at h
  split at h
  · cases h
  · next f hf =>
    refine ⟨f, hf, ?_⟩
    split at h
    · next hd => rw [hd, Option.some.inj h]
    · cases h

/-- A command word decodes to an instruction that is sent as a command word. -/
theorem encode_decodeCommand_ne_selector (w u : BitVec 10) : encode (decodeCommand w) ≠ .selector u := by
  rcases decodeCommand_cases w with h | ⟨v, h⟩ | h | h <;> rw [h] <;> exact Fetched.noConfusion

/-- Settles O7: the word is a command word, placed at a ready port, or a selection that names an operation, placed in `PH`
and `STEP`; in both cases the sample placed with it is used up by that edge. -/
theorem placedWordRunsNext : Obligations.PlacedWordRunsNext := by
  intro s nbits w i h
  obtain ⟨f, hf, hd⟩ := decodeTableWord_eq_some h
  have hplace : s.withFetchWord nbits w = placeFetched f s := by rw [State.withFetchWord, hf]
  rw [hplace]
  refine ⟨consumePins (placeFetched f s), ?_⟩
  cases f with
  | command w =>
    obtain rfl : decodeCommand w = i := Except.ok.inj hd
    exact ⟨step_placeFetched_command s w, rfl, fun u hu => absurd hu (encode_decodeCommand_ne_selector w u),
      fun _ _ => ⟨cmdReady_placeFetched_command s w, rfl⟩, fun _ => rfl⟩
  | selector u =>
    have henc : encode i = .selector u := encode_of_decodeSelector hd
    refine ⟨step_placeFetched_selector s hd, rfl, fun u' hu => ?_, fun c hc => ?_, fun hret => ?_⟩
    · rw [henc] at hu
      exact (selectorWord_phase_step u).trans (Fetched.selector.inj hu)
    · rw [henc] at hc
      cases hc
    · show (if _ then _ else _) = _
      simp [hret]

end Sys2Proof.Machine

/-!
PROOFS. The adder and the shifter (43_datapath_units.md sections 2, 3, 6) and the word index of the schedule ROM
(44_constant_rom_and_schedule.md section 2).
-/

namespace Sys2Proof.Machine

theorem toNat_add32 (x y : Word) : (add32 x y).toNat = (x.toNat + y.toNat) % 2 ^ 32 := BitVec.toNat_add x y

/-- Reducing each partial sum modulo `2 ^ 32` is reducing the whole sum (R202). -/
theorem toNat_sum4 (w x y z : Word) : (sum4 w x y z).toNat = (w.toNat + x.toNat + y.toNat + z.toNat) % 2 ^ 32 := by
  rw [sum4, toNat_add32, toNat_add32, toNat_add32]
  omega

/-- Settles O30: the sums as numbers, and the group laws of words. -/
theorem adderIsModular : Obligations.AdderIsModular := by
  intro w x y z
  exact ⟨toNat_add32 x y, toNat_sum4 w x y z, BitVec.add_comm x y, BitVec.add_assoc x y z, BitVec.add_zero x,
    by decide, by decide⟩

theorem rotl32_zero (x : Word) : rotl32 x 0#5 = x := by
  apply BitVec.eq_of_getLsbD_eq
  intro j hj
  rw [getLsbD_rotl32 x 0#5 hj]
  congr 1
  simp [Nat.mod_eq_of_lt hj]

/-- Bit `j` of the second rotation is bit `(j - t) mod 32` of the first and bit `(j - t - s) mod 32 = j` of `x`. -/
theorem rotl32_rotl32_inverse (x : Word) {s t : BitVec 5} (h : t.toNat = (32 - s.toNat) % 32) :
    rotl32 (rotl32 x s) t = x := by
  apply BitVec.eq_of_getLsbD_eq
  intro j hj
  have hs : s.toNat < 32 := s.isLt
  have hback : ((j + 32 - t.toNat) % 32 + 32 - s.toNat) % 32 = j := by omega
  rw [getLsbD_rotl32 _ t hj, getLsbD_rotl32 x s (Nat.mod_lt _ (by decide)), hback]

/-- Settles O32: amount 0, and the rotation back. -/
theorem rotatorLosesNoBit : Obligations.RotatorLosesNoBit :=
  fun x _ _ => ⟨rotl32_zero x, rotl32_rotl32_inverse x⟩

/-- Settles O34: four closed values. -/
theorem stepFunctionWorkedExample : Obligations.StepFunctionWorkedExample := by
  unfold Obligations.StepFunctionWorkedExample
  decide

/-- The word index of step `j` of round `r` by the formula of the round (R243). -/
theorem scheduleIndex_of_round (r : Fin 4) (j : Fin 16) :
    scheduleIndex ⟨16 * r.val + j.val, by omega⟩ =
      ([0, 1, 5, 0].getD r.val 0 + [1, 5, 3, 7].getD r.val 0 * j.val) % 16 := by
  revert r j; decide

/-- The factors 1, 5, 3, 7 of the rounds are invertible modulo 16: each round meets each index, and only once. -/
theorem existsUnique_scheduleIndex (r : Fin 4) (k : Fin 16) :
    ∃! j : Fin 16, scheduleIndex ⟨16 * r.val + j.val, by omega⟩ = k.val := by
  simp only [scheduleIndex_of_round, ExistsUnique]
  revert r k; decide

/-- Settles O36: the schedule words hold the indices of the formulas (`toNat_swK_sromAt`), which permute the sixteen words
in each round. -/
theorem eachRoundUsesEachWordOnce : Obligations.EachRoundUsesEachWordOnce := by
  intro r k
  simp only [toNat_swK_sromAt]
  exact existsUnique_scheduleIndex r k

end Sys2Proof.Machine

/-!
PROOFS. What an instruction writes (10_state.md sections 2 to 4; 20_memory.md section 8).
-/

namespace Sys2Proof.Machine

variable {s t : State}

/-- Settles O23: a byte read after the write (`readByte_memWriteByte`), a word by its four bytes, and `buffer_ext`. -/
theorem byteWriteChangesOneLane : Obligations.ByteWriteChangesOneLane := by
  intro x j v
  refine ⟨readByte_memWriteByte_same x j v, fun i hi => readByte_memWriteByte_other x v hi, fun k hk => ?_,
    fun _ => buffer_ext⟩
  have hother (l : Fin 4) : byteAddr k l ≠ j := by
    rintro rfl
    simp only [byteAddr] at hk
    omega
  rw [get_eq_unle32, get_eq_unle32 x]
  simp only [readByte_memWriteByte_other x v (hother _)]

/-- What a command can do: its effect in `ABSORB`, its effect in `DONE`, or nothing. -/
theorem commandByPhase_cases (f g : State → State) (s : State) :
    (s.PH = Config.phAbsorb ∧ commandByPhase f g s = f s) ∨ (s.PH = Config.phDone ∧ commandByPhase f g s = g s) ∨
      commandByPhase f g s = s := by
  by_cases ha : s.PH = Config.phAbsorb
  · exact .inl ⟨ha, commandByPhase_absorb ha⟩
  · by_cases hd : s.PH = Config.phDone
    · exact .inr (.inl ⟨hd, commandByPhase_done hd⟩)
    · exact .inr (.inr (by rw [commandByPhase, if_neg ha, if_neg hd]))

/-- What a command's two effects lead to and what holds already, the command leads to. -/
theorem commandByPhase_preserves {P : State → Prop} {f g : State → State} (hs : P s) (hf : P (f s)) (hg : P (g s)) :
    P (commandByPhase f g s) := by
  rcases commandByPhase_cases f g s with ⟨-, h⟩ | ⟨-, h⟩ | h <;> rw [h] <;> assumption

/-- A field that both effects of a command keep is kept by the command. -/
theorem commandByPhase_keeps {α : Type} (F : State → α) {f g : State → State} (hf : F (f s) = F s) (hg : F (g s) = F s) :
    F (commandByPhase f g s) = F s :=
  commandByPhase_preserves (P := fun u => F u = F s) rfl hf hg

/-- Settles O24, instruction by instruction: only `DATA` in `ABSORB`, `PADF` and `PADL` write lanes, and their lanes are
`fillAddr`, those from the fill index up, and all. -/
theorem bufferFrame : Obligations.BufferFrame := by
  intro s t i h
  refine ⟨(exec_inputs s h).1, ?_⟩
  rcases exec_cases s h with ⟨rfl, rfl⟩ | ⟨v, rfl, rfl⟩ | ⟨rfl, rfl⟩ | ⟨rfl, rfl⟩ | ⟨rfl, rfl⟩ | ⟨rfl, rfl⟩ | ⟨rfl, rfl⟩ |
    ⟨rfl, rfl⟩ | ⟨e, rfl, rfl⟩ <;> intro j hj
  · rw [commandByPhase_keeps State.X rfl rfl]
  · rcases commandByPhase_cases (absorbByte v) raiseProtocolError s with ⟨hp, hcmd⟩ | ⟨-, hcmd⟩ | hcmd <;> rw [hcmd]
    · rw [absorbByte_X]
      exact readByte_memWriteByte_other s.X v (hj hp)
    · rfl
  · rw [commandByPhase_keeps State.X rfl rfl]
  · rw [commandByPhase_keeps State.X rfl rfl]
  · rw [formatFirst_X, readByte_writeLanes, padfLanes_below hj, Option.getD_none]
  · exact hj.elim
  · rfl
  · rfl
  · rw [sequencerStep_X]

end Sys2Proof.Machine

namespace Sys2Proof.Machine

variable {s t : State}

theorem exec_chainOf {i : Instr} (h : exec i s = .next t) : chainOf t = chainOf s ∨ i = .init ∨ i = .addback := by
  rcases exec_cases s h with ⟨rfl, rfl⟩ | ⟨v, rfl, rfl⟩ | ⟨rfl, rfl⟩ | ⟨rfl, rfl⟩ | ⟨rfl, rfl⟩ | ⟨rfl, rfl⟩ | ⟨rfl, rfl⟩ |
    ⟨rfl, rfl⟩ | ⟨e, rfl, rfl⟩
  · exact .inr (.inl rfl)
  · exact .inl (commandByPhase_keeps chainOf (chainOf_absorbByte s v) (chainOf_raiseProtocolError s))
  · exact .inl (commandByPhase_keeps chainOf (chainOf_closeMessage s) (chainOf_raiseProtocolError s))
  · exact .inl (commandByPhase_keeps chainOf (chainOf_raiseProtocolError s) (chainOf_raiseProtocolError s))
  · exact .inl (chainOf_formatFirst s)
  · exact .inl (chainOf_formatLast s)
  · exact .inl (chainOf_loadWorking s)
  · exact .inr (.inr rfl)
  · exact .inl (chainOf_sequencerStep s e)

theorem exec_workingOf {i : Instr} (h : exec i s = .next t) :
    workingOf t = workingOf s ∨ i = .load ∨ ∃ e, i = stepInstr e ∧ t = sequencerStep e s := by
  rcases exec_cases s h with ⟨rfl, rfl⟩ | ⟨v, rfl, rfl⟩ | ⟨rfl, rfl⟩ | ⟨rfl, rfl⟩ | ⟨rfl, rfl⟩ | ⟨rfl, rfl⟩ | ⟨rfl, rfl⟩ |
    ⟨rfl, rfl⟩ | ⟨e, rfl, rfl⟩
  · exact .inl (commandByPhase_keeps workingOf (workingOf_startMessage s) (workingOf_startMessage s))
  · exact .inl (commandByPhase_keeps workingOf (workingOf_absorbByte s v) (workingOf_raiseProtocolError s))
  · exact .inl (commandByPhase_keeps workingOf (workingOf_closeMessage s) (workingOf_raiseProtocolError s))
  · exact .inl (commandByPhase_keeps workingOf (workingOf_raiseProtocolError s) (workingOf_raiseProtocolError s))
  · exact .inl (workingOf_formatFirst s)
  · exact .inl (workingOf_formatLast s)
  · exact .inr (.inl rfl)
  · exact .inl (workingOf_addBackReturn s)
  · exact .inr (.inr ⟨e, rfl, rfl⟩)

/-- A step keeps every working register but that of its quarter (R109). -/
theorem sequencerStep_working (e : Fin 64) (s : State) :
    ((sequencerStep e s).a = s.a ∨ e.val % 4 = 0) ∧ ((sequencerStep e s).d = s.d ∨ e.val % 4 = 1) ∧
      ((sequencerStep e s).c = s.c ∨ e.val % 4 = 2) ∧ ((sequencerStep e s).b = s.b ∨ e.val % 4 = 3) := by
  have hmod : e.val % 4 = 0 ∨ e.val % 4 = 1 ∨ e.val % 4 = 2 ∨ e.val % 4 = 3 := by omega
  rcases hmod with h | h | h | h <;> simp [sequencerStep, dstOf, h]

/-- Settles O52: the chaining registers as four words, and the working registers: the four together, or one step. -/
theorem generalRegisterWriters : Obligations.GeneralRegisterWriters := by
  intro s t i h
  refine ⟨exec_chainOf h, ?_⟩
  rcases exec_workingOf h with hw | rfl | ⟨e, rfl, rfl⟩
  · obtain ⟨ha, hb, hc, hd⟩ := Chain.mk.inj hw
    exact ⟨.inl ha, .inl hd, .inl hc, .inl hb⟩
  · exact ⟨.inr (.inl rfl), .inr (.inl rfl), .inr (.inl rfl), .inr (.inl rfl)⟩
  · obtain ⟨ha, hd, hc, hb⟩ := sequencerStep_working e s
    exact ⟨ha.imp_right fun h => .inr ⟨e, rfl, h⟩, hd.imp_right fun h => .inr ⟨e, rfl, h⟩,
      hc.imp_right fun h => .inr ⟨e, rfl, h⟩, hb.imp_right fun h => .inr ⟨e, rfl, h⟩⟩

theorem absorbByte_cases (v : Byte) (s : State) :
    absorbByte v s = storeByte v s ∨ absorbByte v s = enterCompression Config.phAbsorb (storeByte v s) := by
  cases h : fillsBuffer s.LEN with
  | false => exact .inl (absorbByte_of_not_full s v h)
  | true => exact .inr (absorbByte_of_full s v h)

/-- Settles O53, instruction by instruction; a command has its effect in `ABSORB`, its effect in `DONE`, or none. -/
theorem systemRegisterWriters : Obligations.SystemRegisterWriters := by
  intro s t i h
  rcases exec_cases s h with ⟨rfl, rfl⟩ | ⟨v, rfl, rfl⟩ | ⟨rfl, rfl⟩ | ⟨rfl, rfl⟩ | ⟨rfl, rfl⟩ | ⟨rfl, rfl⟩ | ⟨rfl, rfl⟩ |
    ⟨rfl, rfl⟩ | ⟨e, rfl, rfl⟩
  · rcases commandByPhase_cases startMessage startMessage s with ⟨-, hcmd⟩ | ⟨-, hcmd⟩ | hcmd <;> simp [hcmd]
  · rcases commandByPhase_cases (absorbByte v) raiseProtocolError s with ⟨-, hcmd⟩ | ⟨-, hcmd⟩ | hcmd
    · rcases absorbByte_cases v s with habs | habs <;> simp [hcmd, habs]
    · simp [hcmd]
    · simp [hcmd]
  · rcases commandByPhase_cases closeMessage raiseProtocolError s with ⟨-, hcmd⟩ | ⟨-, hcmd⟩ | hcmd <;> simp [hcmd]
  · rcases commandByPhase_cases raiseProtocolError raiseProtocolError s with ⟨-, hcmd⟩ | ⟨-, hcmd⟩ | hcmd <;> simp [hcmd]
  · cases hfit : lengthFits s.LEN <;> simp [hfit]
  · simp
  · simp
  · simp
  · have hstep : ∃ e' : Fin 64, stepInstr e = stepInstr e' ∧ BitVec.ofNat 7 (e.val + 2) = BitVec.ofNat 7 (e'.val + 2) :=
      ⟨e, rfl, rfl⟩
    simp [hstep]

end Sys2Proof.Machine

/-!
PROOFS. The host commands outside `DONE` (40_host_commands.md sections 2 and 3).
-/

namespace Sys2Proof.Machine

/-- Settles O18: the effect of `FINAL` in `ABSORB` is `closeMessage`. -/
theorem finalEntersPadding : Obligations.FinalEntersPadding := by
  intro s hp
  rw [exec_final, commandByPhase_absorb hp, closeMessage]

/-- Settles O21: each of the four commands is by phase, and has no effect outside the ready phases. -/
theorem commandWaitsWhileNotReady : Obligations.CommandWaitsWhileNotReady := by
  intro s w hr
  rcases decodeCommand_cases w with h | ⟨v, h⟩ | h | h <;> rw [h]
  · rw [exec_init, commandByPhase_notReady hr]
  · rw [exec_data, commandByPhase_notReady hr]
  · rw [exec_final, commandByPhase_notReady hr]
  · rw [exec_rsvd, commandByPhase_notReady hr]

end Sys2Proof.Machine

/-!
PROOFS. One edge: where the machine stops, what a not-ready edge runs, the reset edge, and the invariant of 10_state.md R47.
-/

namespace Sys2Proof.Machine

variable {s t : State}

/-! The control values without a row (93_implementation_defined.md U3). -/

theorem stepInPhase_eq_false_iff (ph : BitVec 3) (st : BitVec 7) :
    stepInPhase ph st = false ↔ (ph = 1#3 ∧ 66 ≤ st.toNat) ∨ (ph ≠ 1#3 ∧ st ≠ 0#7) := by
  by_cases hp : ph = 1#3
  · simp [stepInPhase, hp, Nat.lt_iff_add_one_le]
  · simp [stepInPhase, hp]

theorem returnLegal_eq_false_iff (ret : BitVec 3) :
    returnLegal ret = false ↔ ret ≠ 0#3 ∧ ret ≠ 3#3 ∧ ret ≠ 4#3 := by
  simp [returnLegal, and_assoc]

/-- The fault of a state, by cause; the test of `STEP` comes before that of `RET`. -/
theorem controlFault_eq_some_iff (r : Fault) : controlFault s = some r ↔
    (r = .unreachablePhase ∧ 5 ≤ s.PH.toNat) ∨
    (r = .unreachableStep ∧ s.PH.toNat ≤ 4 ∧ stepInPhase s.PH s.STEP = false) ∨
    (r = .unreachableReturn ∧ s.PH.toNat ≤ 4 ∧ stepInPhase s.PH s.STEP = true ∧ s.PH = 1#3 ∧ returnLegal s.RET = false) := by
  unfold controlFault
  split
  · next hp =>
    have hp' : ¬ s.PH.toNat ≤ 4 := by omega
    simp [hp, hp', @eq_comm _ r]
  · next hp =>
    have hp' : s.PH.toNat ≤ 4 := by omega
    split
    · next hst => simp [hp, hp', hst, @eq_comm _ r]
    · next hst =>
      split
      · next hret =>
        obtain ⟨hcomp, hillegal⟩ := hret
        rw [hcomp, Bool.not_eq_false] at hst
        simp [hcomp, hillegal, hst, @eq_comm _ r]
      · next hret =>
        have hlegal : s.PH = 1#3 → returnLegal s.RET = true := fun hcomp => by simpa [hcomp] using hret
        simp only [hst, false_iff, not_or, not_and, reduceCtorEq]
        exact ⟨fun _ => hp, fun _ _ h => h, fun _ _ _ hcomp => by simp [hlegal hcomp]⟩

/-- At a not-ready edge without a fault the selection names a micro-operation (R107). -/
theorem exists_decodeSelector (hf : controlFault s = none) (hr : cmdReady s = false) :
    ∃ i, decodeSelector (selectorWord s.PH s.STEP) = .ok i := by
  obtain ⟨hp, hst, -⟩ := controlFault_eq_none.mp hf
  apply decodeSelector_of_wellFormed
  change (phaseHasMicroOps (selectorPhase _) && stepInPhase (selectorPhase _) (selectorStep _)) = true
  rw [selectorPhase_selectorWord, selectorStep_selectorWord, hst, Bool.and_true]
  rcases Config.phase_cases hp with h | h | h | h | h <;> simp [phaseHasMicroOps, cmdReady, h] at hr ⊢

/-- A not-ready edge without `rst` that does not stop runs the selected micro-operation. -/
theorem exec_of_step_notReady (hrst : (nextPins s).rst = false) (hr : cmdReady s = false) (h : step s = .next t) :
    ∃ i, decodeSelector (selectorWord s.PH s.STEP) = .ok i ∧ exec i (consumePins s) = .next t := by
  cases hf : controlFault s with
  | some r => rw [step_stuck hrst hf] at h; cases h
  | none =>
    obtain ⟨i, hi⟩ := exists_decodeSelector hf hr
    exact ⟨i, hi, step_micro hrst hf hr hi ▸ h⟩

/-- An edge without a fault has a next state. -/
theorem step_next_of_controlFault (hf : controlFault s = none) : ∃ t, step s = .next t := by
  cases hrst : (nextPins s).rst with
  | true => exact ⟨_, step_reset hrst⟩
  | false =>
    cases hr : cmdReady s with
    | false =>
      obtain ⟨i, hi⟩ := exists_decodeSelector hf hr
      exact (step_micro hrst hf hr hi).symm ▸ exec_next _ i
    | true =>
      cases hv : (nextPins s).cmdValid with
      | false => exact ⟨_, step_idle hrst hf hr hv⟩
      | true => exact (step_command hrst hf hr hv).symm ▸ exec_next _ _

theorem step_eq_fault_iff (r : Fault) : step s = .fault r ↔ (nextPins s).rst = false ∧ controlFault s = some r := by
  refine ⟨fun h => ?_, fun ⟨hrst, hf⟩ => step_stuck hrst hf⟩
  cases hrst : (nextPins s).rst with
  | true => rw [step_reset hrst] at h; cases h
  | false =>
    cases hf : controlFault s with
    | none =>
      obtain ⟨t, ht⟩ := step_next_of_controlFault hf
      rw [ht] at h; cases h
    | some r' =>
      rw [step_stuck hrst hf] at h
      cases h
      exact ⟨rfl, rfl⟩

/-- Settles O13: a step stops exactly at a control fault without `rst` (`step_eq_fault_iff`); the causes as numbers. -/
theorem stopsExactlyAtUnreachableControl : Obligations.StopsExactlyAtUnreachableControl := by
  intro s r
  rw [step_eq_fault_iff, controlFault_eq_some_iff]
  refine and_congr_right fun _ => or_congr_right (or_congr ?_ ?_)
  · rw [stepInPhase_eq_false_iff]
  · rw [returnLegal_eq_false_iff]
    refine and_congr_right fun _ => ⟨fun ⟨_, hst, hp, hret⟩ => ⟨hp, ?_, hret⟩, fun ⟨hp, hle, hret⟩ => ⟨?_, ?_, hp, hret⟩⟩
    · simpa [stepInPhase, hp] using hst
    · simp [hp]
    · simpa [stepInPhase, hp] using hle

/-- The event of a not-ready edge does not depend on what is offered. -/
theorem dueEvent_notReady {p q : Pins} (hr : cmdReady s = false) (hrst : p.rst = q.rst) :
    dueEvent { s with inputs := p :: s.inputs } = dueEvent { s with inputs := q :: s.inputs } := by
  have hready (l : List Pins) : cmdReady { s with inputs := l } = false := hr
  have hfault (l : List Pins) : controlFault { s with inputs := l } = controlFault s := rfl
  simp only [dueEvent, nextPins, List.headD_cons, hready, hfault, hrst, Bool.false_eq_true, if_false]

/-- Settles O9: the two edges have the same event, and use up the two samples. -/
theorem notReadyEdgeIgnoresTheOffer : Obligations.NotReadyEdgeIgnoresTheOffer := by
  intro s p q hr hrst
  unfold step
  rw [dueEvent_notReady hr hrst]
  rfl

/-- Settles O50: no command is accepted without `cmd_ready`, and in `COMP` the selected operations are those of the
sequencer, which write neither the buffer nor `LEN`. -/
theorem notReadyInterlock : Obligations.NotReadyInterlock := by
  intro s t hrst hr h
  refine ⟨acceptedCommand_notReady hr, fun hp => ?_⟩
  obtain ⟨i, hi, hx⟩ := exec_of_step_notReady hrst hr h
  rw [hp, decodeSelector_comp] at hi
  rcases compOperation_eq_ok hi with ⟨rfl, -⟩ | ⟨rfl, -⟩ | ⟨e, rfl, -⟩
  · rw [exec_load] at hx; cases hx
    exact ⟨rfl, rfl⟩
  · rw [exec_addback] at hx; cases hx
    exact ⟨rfl, rfl⟩
  · rw [exec_stepInstr] at hx; cases hx
    exact ⟨sequencerStep_X _ e, sequencerStep_LEN _ e⟩

/-! The reset edge and the invariant. -/

theorem eq_resetEdge_of_step (hrst : (nextPins s).rst = true) (h : step s = .next t) : t = resetEdge (consumePins s) := by
  rw [step_reset hrst] at h
  exact (Host.Outcome.next.inj h).symm

/-- The port with the IV in the chaining registers. -/
theorem digest_iv : ivD ++ ivC ++ ivB ++ ivA = 0x1032547698badcfeefcdab8967452301#128 := by decide

/-- Settles O12: the outputs are functions of the registers a reset edge writes. -/
theorem outputsAfterReset : Obligations.OutputsAfterReset := by
  intro s t hrst h
  rw [eq_resetEdge_of_step hrst h]
  exact ⟨rfl, rfl, rfl, digest_iv⟩

/-- Settles O15: the control registers and `LEN` are 0 in the reset state and after a reset edge. -/
theorem resetHasTheInvariant : Obligations.ResetHasTheInvariant := by
  refine ⟨⟨⟨by decide, rfl, rfl⟩, rfl⟩, fun s t hrst h => ?_⟩
  rw [eq_resetEdge_of_step hrst h]
  exact ⟨⟨Nat.zero_le _, rfl, rfl⟩, rfl⟩

theorem returnLegal_cases {ret : BitVec 3} (h : returnLegal ret = true) :
    ret = Config.phAbsorb ∨ ret = Config.phPadl ∨ ret = Config.phDone := by
  simpa [returnLegal, or_assoc] using h

theorem controlInv_enterCompression {ret : BitVec 3} (h : returnLegal ret = true) (s : State) :
    ControlInv (enterCompression ret s) :=
  ⟨by simp, h, rfl⟩

theorem returnLegal_formatFirst (s : State) : returnLegal (formatFirst s).RET = true := by
  rw [formatFirst_RET]
  split <;> rfl

/-- A command accepted in a ready phase leads to legal control. -/
theorem ControlInv.exec_accepted {i : Instr} (hc : ControlInv s) (h : acceptedCommand s = some i)
    (hx : exec i (consumePins s) = .next t) : ControlInv t := by
  obtain ⟨-, -, hr, -⟩ := acceptedCommand_eq_some h
  obtain ⟨-, h0⟩ := hc.ready hr
  have hret : returnLegal s.RET = true := hc.ret_legal
  have hdrop : ControlInv (raiseProtocolError (consumePins s)) := hc
  rcases acceptedCommand_cases h with rfl | ⟨v, rfl⟩ | rfl | rfl
  · rw [exec_init] at hx; cases hx
    have hstart : ControlInv (startMessage (consumePins s)) := ⟨by simp, hret, by simp [stepInPhase, h0]⟩
    exact commandByPhase_preserves hc hstart hstart
  · rw [exec_data] at hx; cases hx
    refine commandByPhase_preserves hc ?_ hdrop
    rcases absorbByte_cases v (consumePins s) with habs | habs <;> rw [habs]
    · simpa [ControlInv] using hc
    · exact controlInv_enterCompression rfl _
  · rw [exec_final] at hx; cases hx
    exact commandByPhase_preserves hc ⟨by simp, hret, by simp [stepInPhase, h0]⟩ hdrop
  · rw [exec_rsvd] at hx; cases hx
    exact commandByPhase_preserves hc hdrop hdrop

/-- Every edge keeps legal control (10_state.md R47 (a), (b)). -/
theorem ControlInv.step (hc : ControlInv s) (h : step s = .next t) : ControlInv t := by
  have hret : returnLegal s.RET = true := hc.ret_legal
  rcases step_cases hc h with ⟨-, rfl⟩ | ⟨-, -, rfl⟩ | ⟨-, i, hi, hx⟩ | ⟨-, -, rfl⟩ | ⟨-, -, rfl⟩ | ⟨hp, -, rfl⟩ |
    ⟨hp, e, -, rfl⟩ | ⟨-, -, rfl⟩
  · exact ⟨by simp, rfl, rfl⟩
  · exact hc
  · exact hc.exec_accepted hi hx
  · exact ⟨by simp, returnLegal_formatFirst _, by simp [stepInPhase]⟩
  · exact ⟨by simp, by simp [returnLegal], by simp [stepInPhase]⟩
  · exact ⟨by simp [hp], by simpa using hret, by simp [stepInPhase, hp]⟩
  · refine ⟨by simp [hp], by simpa using hret, ?_⟩
    simp [stepInPhase, hp]
    omega
  · refine ⟨?_, hret, ?_⟩
    · rcases returnLegal_cases hret with h | h | h <;> simp [h]
    · rcases returnLegal_cases hret with h | h | h <;> simp [stepInPhase, h]

/-- A byte more is 8 bits more: the three low bits of `LEN` stay 0 (10_state.md R47 (c)). -/
theorem extractLsb'_low_add8 (len : BitVec 64) : (len + 8#64).extractLsb' 0 3 = len.extractLsb' 0 3 := by
  apply BitVec.eq_of_toNat_eq
  simp only [BitVec.extractLsb'_toNat, BitVec.toNat_add, BitVec.toNat_ofNat]
  omega

theorem LengthInv.step (hl : LengthInv s) (h : step s = .next t) : LengthInv t := by
  cases hrst : (nextPins s).rst with
  | true => rw [eq_resetEdge_of_step hrst h]; rfl
  | false =>
    rcases step_noReset_cases hrst h with ⟨-, rfl⟩ | ⟨f, i, -, -, hx⟩
    · exact hl
    · obtain ⟨hlen, -⟩ := systemRegisterWriters (consumePins s) t i hx
      unfold LengthInv
      rcases hlen with hlen | ⟨-, hlen⟩ | ⟨-, hlen⟩ <;> rw [hlen]
      · exact hl
      · rfl
      · rw [extractLsb'_low_add8]; exact hl

/-- Settles O14: legal control has a next state, and every edge keeps both parts of the invariant. -/
theorem everyStepKeepsTheInvariant : Obligations.EveryStepKeepsTheInvariant := by
  intro s ⟨hc, hl⟩
  obtain ⟨t, ht⟩ := hc.step_next
  exact ⟨t, ht, hc.step ht, hl.step ht⟩

end Sys2Proof.Machine

/-!
PROOFS. The compression sequencer (45_compression_sequencer.md sections 1 and 2): the 66 edges of a block, and the rotating
form of `compress`.
-/

namespace Sys2Proof.Machine

variable {s t u : State}

/-! What a compression in progress ends with, as a function of the state at any of its edges. -/

/-- The words with which the rest of the loop starts: the chaining registers before `LOAD`, the working registers after. -/
def loopEntry (s : State) : Chain := if s.STEP = 0#7 then chainOf s else workingOf s

/-- The ROM entries of the steps still to come at an edge of `COMP`. -/
def entriesLeft (s : State) : List (Fin 64) := (List.finRange 64).drop (s.STEP.toNat - 1)

/-- The chaining registers that `ADDBACK` will write, from any edge of `COMP`: the rest of the loop, then the feed-forward. -/
def compressionResult (s : State) : Chain :=
  addChain (chainOf s) ((entriesLeft s).foldl (compressStep s.X) (loopEntry s))

theorem compressionResult_entry (h0 : s.STEP = 0#7) : compressionResult s = compress s.X (chainOf s) := by
  simp [compressionResult, compress, entriesLeft, loopEntry, h0]

theorem compressionResult_loadWorking (h0 : s.STEP = 0#7) :
    compressionResult (loadWorking (consumePins s)) = compressionResult s := by
  simp [compressionResult, entriesLeft, loopEntry, h0]

/-- One step does one turn of the loop, with the first of the entries left. -/
theorem compressionResult_sequencerStep (e : Fin 64) (he : s.STEP.toNat = e.val + 1) :
    compressionResult (sequencerStep e (consumePins s)) = compressionResult s := by
  have hnext : (BitVec.ofNat 7 (e.val + 2)).toNat = e.val + 2 := by rw [BitVec.toNat_ofNat]; omega
  have hnext0 : BitVec.ofNat 7 (e.val + 2) ≠ 0#7 := fun h => by simp [h] at hnext
  have h0 : s.STEP ≠ 0#7 := fun h => by simp [h] at he
  have hdrop : (List.finRange 64).drop e.val = e :: (List.finRange 64).drop (e.val + 1) := by
    rw [List.drop_eq_getElem_cons (by simp)]
    simp
  simp [compressionResult, entriesLeft, loopEntry, hnext, hnext0, h0, he, hdrop]

theorem chainOf_addBackReturn_eq (h65 : s.STEP = 65#7) :
    chainOf (addBackReturn (consumePins s)) = compressionResult s := by
  have hdone : (List.finRange 64).drop 64 = [] := List.drop_of_length_le (by simp)
  simp [compressionResult, entriesLeft, loopEntry, h65, hdone]

/-! The edges of a block, counted from its entry. -/

/-- `u` is reached from the entry `s` of `COMP` by `k` edges, and is the compression of the same block after them. -/
structure InBlock (s u : State) (k : Nat) : Prop where
  run_eq : run k s = .next u
  PH_eq : u.PH = Config.phComp
  STEP_eq : u.STEP.toNat = k
  result_eq : compressionResult u = compressionResult s
  X_eq : u.X = s.X
  LEN_eq : u.LEN = s.LEN
  RET_eq : u.RET = s.RET
  ERR_eq : u.ERR = s.ERR
  inputs_eq : u.inputs = s.inputs.drop k

/-- Edge 0 of a block is `LOAD`, edge `k` from 1 to 64 is `STEP k`. -/
theorem InBlock.succ {k : Nat} (h : InBlock s u k) (hk : k < 65) (hret : returnLegal s.RET = true)
    (hrst : (nextPins u).rst = false) : ∃ v, InBlock s v (k + 1) := by
  have hlegal : returnLegal u.RET = true := h.RET_eq ▸ hret
  rcases Nat.eq_zero_or_pos k with rfl | hpos
  · have h0 : u.STEP = 0#7 := BitVec.eq_of_toNat_eq h.STEP_eq
    refine ⟨loadWorking (consumePins u), run_succ_last 0 h.run_eq (step_load hrst h.PH_eq hlegal h0), h.PH_eq, rfl,
      (compressionResult_loadWorking h0).trans h.result_eq, h.X_eq, h.LEN_eq, h.RET_eq, h.ERR_eq, ?_⟩
    simp [h.inputs_eq]
  · have he : u.STEP.toNat = k - 1 + 1 := by rw [h.STEP_eq]; omega
    let e : Fin 64 := ⟨k - 1, by omega⟩
    refine ⟨sequencerStep e (consumePins u), run_succ_last k h.run_eq (step_stepInstr hrst h.PH_eq hlegal e he),
      by simp [h.PH_eq], ?_, (compressionResult_sequencerStep e he).trans h.result_eq, by simp [h.X_eq],
      by simp [h.LEN_eq], by simp [h.RET_eq], by simp [h.ERR_eq], by simp [h.inputs_eq]⟩
    simp only [sequencerStep_STEP, BitVec.toNat_ofNat, e]
    omega

theorem exists_inBlock (hp : s.PH = Config.phComp) (h0 : s.STEP = 0#7) (hret : returnLegal s.RET = true)
    (hno : NoReset 66 s) : ∀ k ≤ 65, ∃ u, InBlock s u k
  | 0, _ => ⟨s, rfl, hp, by simp [h0], rfl, rfl, rfl, rfl, rfl, rfl⟩
  | k + 1, hk => by
    obtain ⟨u, hu⟩ := exists_inBlock hp h0 hret hno k (by omega)
    exact hu.succ (by omega) hret (hno.at (by omega) hu.inputs_eq)

/-- Settles O48: edges 0 to 64 stay in the block (`exists_inBlock`), and edge 65 is `ADDBACK`, which writes the result that
all of them kept. -/
theorem sixtySixEdgesCompressTheBlock : Obligations.SixtySixEdgesCompressTheBlock := by
  intro s hp h0 hret hno
  have hblock := exists_inBlock hp h0 hret hno
  refine ⟨?_, fun k hk => ?_⟩
  · obtain ⟨u, hu⟩ := hblock 65 le_rfl
    have h65 : u.STEP = 65#7 := BitVec.eq_of_toNat_eq hu.STEP_eq
    have hstep := step_addback (hno.at (by decide) hu.inputs_eq) hu.PH_eq (hu.RET_eq ▸ hret) h65
    refine ⟨_, run_succ_last 65 hu.run_eq hstep, ?_, rfl, hu.RET_eq, hu.X_eq, hu.LEN_eq, hu.RET_eq, hu.ERR_eq, ?_⟩
    · rw [chainOf_addBackReturn_eq h65, hu.result_eq, compressionResult_entry h0]
    · simp [hu.inputs_eq]
  · obtain ⟨u, hu⟩ := hblock k (by omega)
    exact ⟨u, hu.run_eq, hu.PH_eq, hu.STEP_eq⟩

/-! The rotating form (R261). -/

/-- The named registers in the order in which the step after `k` steps takes the roles of a, b, c, d. -/
def rotated (k : Nat) (w : Chain) : Chain :=
  if k % 4 = 0 then ⟨w.A, w.B, w.C, w.D⟩
  else if k % 4 = 1 then ⟨w.D, w.A, w.B, w.C⟩
  else if k % 4 = 2 then ⟨w.C, w.D, w.A, w.B⟩
  else ⟨w.B, w.C, w.D, w.A⟩

theorem rotated_64 (w : Chain) : rotated 64 w = w := rfl

theorem rotatingStep_rotated (x : Buffer) (w : Chain) (e : Fin 64) :
    rotatingStep x (rotated e.val w) e = rotated (e.val + 1) (compressStep x w e) := by
  have hmod : e.val % 4 = 0 ∨ e.val % 4 = 1 ∨ e.val % 4 = 2 ∨ e.val % 4 = 3 := by omega
  rcases hmod with h | h | h | h <;> simp [rotatingStep, rotated, compressStep, dstOf, Nat.add_mod, h]

theorem foldl_rotatingStep (x : Buffer) (st : Chain) (k : Nat) (hk : k ≤ 64) :
    ((List.finRange 64).take k).foldl (rotatingStep x) st =
      rotated k (((List.finRange 64).take k).foldl (compressStep x) st) := by
  induction k with
  | zero => rfl
  | succ k ih =>
    rw [take_finRange_succ k (by omega), List.foldl_append, List.foldl_append, ih (by omega)]
    exact rotatingStep_rotated x _ ⟨k, by omega⟩

/-- Settles O49: the tuple is the rotated registers after every step, and after 64 steps it is rotated back. -/
theorem rotatingFormIsCompress : Obligations.RotatingFormIsCompress := by
  intro x st
  refine ⟨?_, foldl_rotatingStep x st⟩
  have hall : (List.finRange 64).take 64 = List.finRange 64 := List.take_of_length_le (by simp)
  have h64 := foldl_rotatingStep x st 64 le_rfl
  rw [hall, rotated_64] at h64
  rw [compressRotating, compress, h64]

end Sys2Proof.Machine

/-!
PROOFS. The digest port as bytes (46_finalizer.md section 2).
-/

namespace Sys2Proof.Machine

/-- Byte `l` of 32-bit field `w` of the port is byte `4w + l` of the port. -/
theorem wordByte_extractLsb' (d : BitVec 128) (w l : Nat) (hl : l < 4) :
    wordByte (d.extractLsb' (32 * w) 32) l = d.extractLsb' (8 * (4 * w + l)) 8 := by
  apply BitVec.eq_of_getLsbD_eq
  intro i hi
  have hin : 8 * l + i < 32 := by omega
  have hpos : 32 * w + (8 * l + i) = 8 * (4 * w + l) + i := by omega
  simp [wordByte, hi, hin, hpos]

theorem le32_extractLsb' (d : BitVec 128) (w : Nat) :
    le32 (d.extractLsb' (32 * w) 32) = (List.range' (4 * w) 4).map fun j => d.extractLsb' (8 * j) 8 := by
  simp [le32, wordByte_extractLsb', List.range']

/-- The four fields of the port (R351). -/
theorem digest_fields (s : State) :
    (digest s).extractLsb' 0 32 = s.A ∧ (digest s).extractLsb' 32 32 = s.B ∧
      (digest s).extractLsb' 64 32 = s.C ∧ (digest s).extractLsb' 96 32 = s.D := by
  refine ⟨?_, ?_, ?_, ?_⟩ <;>
  · apply BitVec.eq_of_getLsbD_eq
    intro i hi
    simp only [digest, BitVec.getLsbD_extractLsb', BitVec.getLsbD_append, hi, decide_true, Bool.true_and]
    simp (disch := omega) only [if_pos, if_neg]
    congr 1
    omega

/-- The sixteen bytes of `finalize` are those of the port, in order. -/
theorem finalize_chainOf (s : State) :
    finalize (chainOf s) = (List.range 16).map fun j => (digest s).extractLsb' (8 * j) 8 := by
  obtain ⟨hA, hB, hC, hD⟩ := digest_fields s
  have h0 := le32_extractLsb' (digest s) 0
  have h1 := le32_extractLsb' (digest s) 1
  have h2 := le32_extractLsb' (digest s) 2
  have h3 := le32_extractLsb' (digest s) 3
  rw [hA] at h0
  rw [hB] at h1
  rw [hC] at h2
  rw [hD] at h3
  rw [finalize, chainOf, h0, h1, h2, h3]
  rfl

theorem leNat_le32_append (x : Word) (r : List Byte) : leNat (le32 x ++ r) = x.toNat + 2 ^ 32 * leNat r := by
  have hx : x.toNat = (wordByte x 0).toNat + 2 ^ 8 * (wordByte x 1).toNat + 2 ^ 16 * (wordByte x 2).toNat +
      2 ^ 24 * (wordByte x 3).toNat := by
    rw [← toNat_unle32, unle32_wordByte]
  simp only [le32, List.cons_append, List.nil_append, leNat]
  omega

theorem toNat_append_word {w : Nat} (x : BitVec w) (y : Word) : (x ++ y).toNat = y.toNat + 2 ^ 32 * x.toNat := by
  rw [BitVec.toNat_append, ← Nat.shiftLeft_add_eq_or_of_lt y.isLt, Nat.shiftLeft_eq]
  omega

theorem toNat_digest (s : State) : (digest s).toNat = leNat (finalize (chainOf s)) := by
  rw [finalize, List.append_assoc, List.append_assoc, leNat_le32_append, leNat_le32_append, leNat_le32_append,
    ← List.append_nil (le32 (chainOf s).D), leNat_le32_append, digest, toNat_append_word, toNat_append_word,
    toNat_append_word]
  rfl

theorem digest_eq_unle128 (s : State) : digest s = unle128 (finalize (chainOf s)) := by
  rw [unle128, ← toNat_digest, BitVec.ofNat_toNat, BitVec.setWidth_eq]

theorem length_finalize (st : Chain) : (finalize st).length = 16 := rfl

theorem getElem?_finalize (s : State) {j : Nat} (hj : j < 16) :
    (finalize (chainOf s))[j]? = some ((digest s).extractLsb' (8 * j) 8) := by
  rw [finalize_chainOf, List.getElem?_map, List.getElem?_range hj]
  rfl

/-- Settles O54: the fields, the bytes, and the value of the port. -/
theorem digestPortIsFinalize : Obligations.DigestPortIsFinalize := by
  intro s
  obtain ⟨hA, hB, hC, hD⟩ := digest_fields s
  exact ⟨hA, hB, hC, hD, length_finalize _, fun _ => getElem?_finalize s, digest_eq_unle128 s⟩

end Sys2Proof.Machine

/-!
PROOFS. The padding function and the blocks of a byte sequence (41_padding_engine.md sections 1 and 3; 42_block_formatter.md
section 1), as functions on byte sequences.
-/

namespace Sys2Proof.Machine

/-! Padding. -/

theorem length_le64 (v : BitVec 64) : (le64 v).length = 8 := by simp [le64]

theorem length_padTail (buf : List Byte) (len : BitVec 64) :
    (padTail buf len).length = buf.length + 1 + padZeros buf.length + 8 := by
  simp [padTail, length_le64]
  omega

/-- `pad` is the tail of the command-level machine on the whole message. -/
theorem pad_eq_padTail (m : List Byte) : pad m = padTail m (BitVec.ofNat 64 (8 * m.length)) := rfl

/-- The marker, the zeros and the length field fill the last block, or go over to one more (R160). -/
theorem add_padZeros (l : Nat) : l + 1 + padZeros l + 8 = 64 * (l / 64 + if l % 64 ≤ 55 then 1 else 2) := by
  unfold padZeros
  split <;> omega

/-- Settles O27: the length is the sum of the parts, and the claims on it are arithmetic modulo 64. -/
theorem padAndItsLength : Obligations.PadAndItsLength := by
  intro m
  have hlen : (pad m).length = m.length + 1 + padZeros m.length + 8 := by rw [pad_eq_padTail, length_padTail]
  have hfield : BitVec.ofNat 64 (8 * m.length) = BitVec.ofNat 64 (8 * m.length % 2 ^ 64) :=
    BitVec.eq_of_toNat_eq (by simp)
  have hz : padZeros m.length = (119 - m.length % 64) % 64 := rfl
  refine ⟨⟨padZeros m.length, by rw [pad, hfield], ?_, fun y hy => ?_, ?_⟩, ?_, ?_, ?_, ?_, ?_⟩
  · omega
  · omega
  · omega
  · omega
  · omega
  · omega
  · omega
  · rw [hlen, add_padZeros]

/-- Settles O28: the tail has the length of the message modulo 64, so as many zeros. -/
theorem padIsDataBlocksThenPaddedTail : Obligations.PadIsDataBlocksThenPaddedTail := by
  intro m
  have hzeros : padZeros (m.drop (64 * (m.length / 64))).length = padZeros m.length := by
    rw [List.length_drop, padZeros, padZeros]
    omega
  rw [padTail, hzeros, pad]
  simp only [← List.append_assoc, List.take_append_drop]

/-! The bytes of a block. -/

@[simp] theorem length_blockBytesOf (x : Buffer) : (blockBytesOf x).length = 64 := by simp [blockBytesOf]

theorem getElem_blockBytesOf (x : Buffer) (j : Nat) (hj : j < (blockBytesOf x).length) :
    (blockBytesOf x)[j] = readByte x ⟨j, by simpa using hj⟩ := by
  simp [blockBytesOf]

theorem getD_blockBytesOf (x : Buffer) (j : Fin 64) : (blockBytesOf x).getD j.val 0#8 = readByte x j := by
  rw [List.getD_eq_getElem _ _ (by simp), getElem_blockBytesOf]

/-- Byte `j` of `Block_q` is byte `64q + j` of the sequence (R180). -/
theorem readByte_blockAt (p : List Byte) (q : Nat) (j : Fin 64) :
    readByte (blockAt p q) j = p.getD (64 * q + j.val) 0#8 := by
  have haddr : 4 * (wordIndex j).val + (laneIndex j).val = j.val := congrArg Fin.val (byteAddr_wordIndex j)
  rw [← byteAddr_wordIndex j, readByte_byteAddr, byteAddr_wordIndex, blockAt, get_ofFn, ← haddr, ← Nat.add_assoc]
  exact wordByte_unle32 (fun l => p.getD (64 * q + 4 * (wordIndex j).val + l.val) 0#8) (laneIndex j)

theorem blockAt_blockBytesOf (x : Buffer) : blockAt (blockBytesOf x) 0 = x := by
  apply buffer_ext
  intro j
  rw [readByte_blockAt, Nat.mul_zero, Nat.zero_add, getD_blockBytesOf]

theorem blockBytesOf_blockAt (p : List Byte) (q : Nat) (h : 64 * q + 64 ≤ p.length) :
    blockBytesOf (blockAt p q) = (p.drop (64 * q)).take 64 := by
  apply List.ext_getElem
  · simp; omega
  · intro j hj _
    have hj : j < 64 := by simpa using hj
    rw [getElem_blockBytesOf, readByte_blockAt, List.getElem_take, List.getElem_drop, List.getD_eq_getElem]

/-- The 64 bytes of a block are those of its words, in order. -/
theorem flatMap_le32_toList (x : Buffer) : x.toList.flatMap le32 = blockBytesOf x := by
  have hwords : x.toList = (List.finRange 16).map x.get := by
    apply List.ext_getElem
    · simp
    · intro k _ _
      simp [Vector.get]
  rw [hwords]
  rfl

/-! The blocks of a sequence. -/

theorem length_blocksOf (p : List Byte) : (blocksOf p).length = p.length / 64 := by simp [blocksOf, Config.blockBytes]

theorem getElem?_blocksOf {p : List Byte} {q : Nat} {x : Buffer} (h : (blocksOf p)[q]? = some x) :
    x = blockAt p q ∧ 64 * q + 64 ≤ p.length := by
  obtain ⟨hq, rfl⟩ := List.getElem?_eq_some_iff.mp h
  rw [length_blocksOf] at hq
  exact ⟨by simp [blocksOf], by omega⟩

theorem flatMap_take_drop (p : List Byte) (n : Nat) :
    (List.range n).flatMap (fun q => (p.drop (64 * q)).take 64) = p.take (64 * n) := by
  induction n with
  | zero => simp
  | succ n ih =>
    rw [List.range_succ, List.flatMap_append, ih, Nat.mul_succ, List.take_add]
    simp

theorem flatMap_blocksOf (p : List Byte) : (blocksOf p).flatMap blockBytesOf = p.take (64 * (p.length / 64)) := by
  rw [blocksOf, List.flatMap_map, ← flatMap_take_drop]
  refine List.flatMap_congr fun q hq => ?_
  have hq : q < p.length / 64 := by simpa [Config.blockBytes] using hq
  exact blockBytesOf_blockAt p q (by omega)

/-- Settles O29: the bytes of block `q` are those of the sequence from `64q` on (`blockBytesOf_blockAt`), and the blocks
one after another are the sequence. -/
theorem blocksRoundTrip : Obligations.BlocksRoundTrip := by
  intro p
  simp only [flatMap_le32_toList]
  refine ⟨fun h => ⟨if_pos h, length_blocksOf p, ?_, fun q x hx => ?_⟩, fun h => if_neg h⟩
  · rw [flatMap_blocksOf, Nat.mul_div_cancel' (Nat.dvd_of_mod_eq_zero h), List.take_length]
  · obtain ⟨rfl, hq⟩ := getElem?_blocksOf hx
    exact blockBytesOf_blockAt p q hq

/-! Blocks of a sequence in two parts. -/

theorem blockAt_append_left {p : List Byte} {q : Nat} (h : 64 * q + 64 ≤ p.length) (r : List Byte) :
    blockAt (p ++ r) q = blockAt p q := by
  apply buffer_ext
  intro j
  rw [readByte_blockAt, readByte_blockAt, List.getD_append _ _ _ _ (by omega)]

theorem blockAt_append_right {p : List Byte} {n : Nat} (h : p.length = 64 * n) (r : List Byte) (q : Nat) :
    blockAt (p ++ r) (n + q) = blockAt r q := by
  apply buffer_ext
  intro j
  have hpos : 64 * (n + q) + j.val - p.length = 64 * q + j.val := by omega
  rw [readByte_blockAt, readByte_blockAt, List.getD_append_right _ _ _ _ (by omega), hpos]

theorem blocksOf_append {p : List Byte} {n : Nat} (h : p.length = 64 * n) (r : List Byte) :
    blocksOf (p ++ r) = blocksOf p ++ blocksOf r := by
  have hp : p.length / 64 = n := by omega
  have hpr : (p ++ r).length / 64 = n + r.length / 64 := by rw [List.length_append]; omega
  simp only [blocksOf, Config.blockBytes, hp, hpr, List.range_add, List.map_append, List.map_map]
  refine congrArg₂ (· ++ ·) ?_ ?_
  · refine List.map_congr_left fun q hq => blockAt_append_left ?_ r
    have hq : q < n := by simpa using hq
    omega
  · exact List.map_congr_left fun q _ => blockAt_append_right h r q

theorem blocksOf_of_length_lt {p : List Byte} (h : p.length < 64) : blocksOf p = [] := by
  simp [blocksOf, Config.blockBytes, Nat.div_eq_of_lt h]

theorem blocksOf_of_length_eq {p : List Byte} (h : p.length = 64) : blocksOf p = [blockAt p 0] := by
  simp [blocksOf, Config.blockBytes, h]

/-! What the hardware leaves in the buffer, as bytes: a byte stored at the fill index, and the padded blocks. -/

/-- A byte stored at lane `n` comes after the `n` bytes below it. -/
theorem take_blockBytesOf_memWriteByte (x : Buffer) (n : Fin 64) (v : Byte) :
    (blockBytesOf (memWriteByte x n v)).take (n.val + 1) = (blockBytesOf x).take n.val ++ [v] := by
  have hn : n.val < (blockBytesOf (memWriteByte x n v)).length := by simp
  rw [List.take_succ_eq_append_getElem hn, getElem_blockBytesOf, readByte_memWriteByte_same]
  refine congrArg (· ++ [v]) (List.ext_getElem ?_ ?_)
  · simp
  · intro j hj _
    have hj : j < n.val := by
      simp only [List.length_take] at hj
      omega
    rw [List.getElem_take, List.getElem_take, getElem_blockBytesOf, getElem_blockBytesOf,
      readByte_memWriteByte_other x v fun h => hj.ne (congrArg Fin.val h)]

/-- The byte at lane 63 completes the block. -/
theorem blockAt_take_append (x : Buffer) {n : Fin 64} (h : n.val = 63) (v : Byte) :
    blockAt ((blockBytesOf x).take n.val ++ [v]) 0 = memWriteByte x n v := by
  rw [← take_blockBytesOf_memWriteByte, h, List.take_of_length_le (by simp), blockAt_blockBytesOf]

theorem getD_le64 (v : BitVec 64) {q : Nat} (h : q < 8) : (le64 v).getD q 0#8 = lenByte v q := by
  simp [le64, List.getD_eq_getElem?_getD, h]

/-- A byte of the padded tail, by the part it is in. -/
theorem getD_padTail (buf : List Byte) (len : BitVec 64) {j : Nat} (hj : j < buf.length + 1 + padZeros buf.length + 8) :
    (padTail buf len).getD j 0#8 =
      if j < buf.length then buf.getD j 0#8
      else if j = buf.length then 0x80#8
      else if j < buf.length + 1 + padZeros buf.length then 0#8
      else lenByte len (j - (buf.length + 1 + padZeros buf.length)) := by
  have hmarked : (buf ++ [0x80#8]).length = buf.length + 1 := by simp
  have hzeros : (buf ++ [0x80#8] ++ List.replicate (padZeros buf.length) 0#8).length =
      buf.length + 1 + padZeros buf.length := by rw [List.length_append, hmarked, List.length_replicate]
  rw [padTail]
  split
  · rw [List.getD_append _ _ _ _ (by omega), List.getD_append _ _ _ _ (by omega), List.getD_append _ _ _ _ (by omega)]
  · split
    · next h =>
      rw [List.getD_append _ _ _ _ (by omega), List.getD_append _ _ _ _ (by omega),
        List.getD_append_right _ _ _ _ (by omega), h, Nat.sub_self]
      rfl
    · split
      · rw [List.getD_append _ _ _ _ (by omega), List.getD_append_right _ _ _ _ (by omega), List.getD_replicate]
        omega
      · rw [List.getD_append_right _ _ _ _ (by omega), hzeros, getD_le64 len (by omega)]

/-- The bytes of the current block that the buffer holds: those below the fill index (10_state.md R38). -/
def bufferedBytes (x : Buffer) (len : BitVec 64) : List Byte := (blockBytesOf x).take (fillIndex len).toNat

theorem length_bufferedBytes (x : Buffer) (len : BitVec 64) : (bufferedBytes x len).length = (fillIndex len).toNat := by
  have hn : (fillIndex len).toNat < 64 := (fillIndex len).isLt
  simp only [bufferedBytes, List.length_take, length_blockBytesOf]
  omega

theorem getD_bufferedBytes (x : Buffer) {len : BitVec 64} {j : Fin 64} (h : j.val < (fillIndex len).toNat) :
    (bufferedBytes x len).getD j.val 0#8 = readByte x j := by
  rw [List.getD_eq_getElem _ _ (by rwa [length_bufferedBytes])]
  simp only [bufferedBytes, List.getElem_take, getElem_blockBytesOf]

/-- `PADF` writes the first block of the padded tail (R166). -/
theorem blockAt_padTail_first (x : Buffer) (len : BitVec 64) :
    blockAt (padTail (bufferedBytes x len) len) 0 = writeLanes x (padfLanes len) := by
  have hn : (fillIndex len).toNat < 64 := (fillIndex len).isLt
  have hz : padZeros (fillIndex len).toNat = (119 - (fillIndex len).toNat % 64) % 64 := rfl
  apply buffer_ext
  intro j
  rw [readByte_blockAt, readByte_writeLanes, getD_padTail _ _ (by rw [length_bufferedBytes]; omega), length_bufferedBytes,
    Nat.mul_zero, Nat.zero_add]
  rcases lt_trichotomy j.val (fillIndex len).toNat with hbelow | hat | habove
  · rw [if_pos hbelow, padfLanes_below hbelow, getD_bufferedBytes x hbelow, Option.getD_none]
  · rw [if_neg hat.not_lt, if_pos hat, padfLanes_at hat, Option.getD_some]
  · rw [if_neg habove.not_gt, if_neg habove.ne', padfLanes_above habove, Option.getD_some]
    by_cases hfield : (fillIndex len).toNat ≤ 55 ∧ 56 ≤ j.val
    · have hend : (fillIndex len).toNat + 1 + padZeros (fillIndex len).toNat = 56 := by omega
      rw [if_pos hfield, hend, if_neg (by omega)]
    · rw [if_neg hfield, if_pos (by omega)]

/-- Where the length field does not fit, `PADL` writes the second block of the padded tail (R168). -/
theorem blockAt_padTail_second (x y : Buffer) {len : BitVec 64} (h : 56 ≤ (fillIndex len).toNat) :
    blockAt (padTail (bufferedBytes x len) len) 1 = writeLanes y (padlLanes len) := by
  have hn : (fillIndex len).toNat < 64 := (fillIndex len).isLt
  have hend : (fillIndex len).toNat + 1 + padZeros (fillIndex len).toNat = 120 := by unfold padZeros; omega
  apply buffer_ext
  intro j
  rw [readByte_blockAt, readByte_writeLanes, getD_padTail _ _ (by rw [length_bufferedBytes, hend]; omega),
    length_bufferedBytes, if_neg (by omega), if_neg (by omega), hend, padlLanes]
  by_cases hfield : 56 ≤ j.val
  · have hq : 64 * 1 + j.val - 120 = j.val - 56 := by omega
    rw [if_pos hfield, if_neg (by omega), hq, Option.getD_some]
  · rw [if_neg hfield, if_pos (by omega), Option.getD_some]

/-- The blocks the padding operations leave in the buffer, one after the other, are those of the padded tail. -/
theorem blocksOf_padTail (x : Buffer) (len : BitVec 64) :
    blocksOf (padTail (bufferedBytes x len) len) =
      if lengthFits len then [writeLanes x (padfLanes len)]
      else [writeLanes x (padfLanes len), writeLanes (writeLanes x (padfLanes len)) (padlLanes len)] := by
  have hn : (fillIndex len).toNat < 64 := (fillIndex len).isLt
  have hlen := length_padTail (bufferedBytes x len) len
  rw [length_bufferedBytes, add_padZeros, Nat.div_eq_of_lt hn, Nat.mod_eq_of_lt hn, Nat.zero_add] at hlen
  by_cases hfit : (fillIndex len).toNat ≤ 55
  · rw [if_pos hfit] at hlen
    rw [if_pos ((lengthFits_iff len).mpr hfit), blocksOf_of_length_eq hlen, blockAt_padTail_first]
  · rw [if_neg hfit] at hlen
    rw [if_neg (mt (lengthFits_iff len).mp hfit), ← blockAt_padTail_first,
      ← blockAt_padTail_second x _ (by omega : 56 ≤ (fillIndex len).toNat), blocksOf, hlen]
    rfl

/-! The bytes of a message beyond its whole blocks. -/

/-- The last `len mod 64` bytes of a message: what is left of it after its whole blocks. -/
def unfinishedBytes (m : List Byte) : List Byte := m.drop (64 * (m.length / 64))

theorem length_unfinishedBytes (m : List Byte) : (unfinishedBytes m).length = m.length % 64 := by
  rw [unfinishedBytes, List.length_drop]
  omega

theorem blocksOf_take_whole (m : List Byte) (r : List Byte) :
    blocksOf (m.take (64 * (m.length / 64)) ++ r) = blocksOf m ++ blocksOf r := by
  have hwhole : (m.take (64 * (m.length / 64))).length = 64 * (m.length / 64) := by
    rw [List.length_take]
    omega
  have hrest : blocksOf (unfinishedBytes m) = [] := blocksOf_of_length_lt (by rw [length_unfinishedBytes]; omega)
  have hm : blocksOf m = blocksOf (m.take (64 * (m.length / 64))) := by
    conv_lhs => rw [← List.take_append_drop (64 * (m.length / 64)) m, blocksOf_append hwhole]
    exact (congrArg _ hrest).trans (List.append_nil _)
  rw [blocksOf_append hwhole, hm]

/-- Bytes more begin where the whole blocks of the message end. -/
theorem blocksOf_append_unfinished (m r : List Byte) :
    blocksOf (m ++ r) = blocksOf m ++ blocksOf (unfinishedBytes m ++ r) := by
  rw [← blocksOf_take_whole, unfinishedBytes, ← List.append_assoc, List.take_append_drop]

theorem blocksOf_pad (m : List Byte) :
    blocksOf (pad m) = blocksOf m ++ blocksOf (padTail (unfinishedBytes m) (BitVec.ofNat 64 (8 * m.length))) := by
  rw [padIsDataBlocksThenPaddedTail m, blocksOf_take_whole, unfinishedBytes]

/-- One byte more, where it does not complete a block. -/
theorem unfinishedBytes_append_singleton {m : List Byte} {v : Byte} (h : (unfinishedBytes m ++ [v]).length ≠ 64) :
    unfinishedBytes (m ++ [v]) = unfinishedBytes m ++ [v] ∧ blocksOf (m ++ [v]) = blocksOf m := by
  rw [List.length_append, length_unfinishedBytes, List.length_singleton] at h
  have hdiv : (m ++ [v]).length / 64 = m.length / 64 := by
    rw [List.length_append, List.length_singleton]
    omega
  have hnone : blocksOf (unfinishedBytes m ++ [v]) = [] := blocksOf_of_length_lt (by
    rw [List.length_append, length_unfinishedBytes, List.length_singleton]
    omega)
  constructor
  · rw [unfinishedBytes, hdiv, List.drop_append_of_le_length (by omega), unfinishedBytes]
  · rw [blocksOf_append_unfinished, hnone, List.append_nil]

/-- One byte more, where it completes a block. -/
theorem unfinishedBytes_append_singleton_full {m : List Byte} {v : Byte} (h : (unfinishedBytes m ++ [v]).length = 64) :
    unfinishedBytes (m ++ [v]) = [] ∧ blocksOf (m ++ [v]) = blocksOf m ++ [blockAt (unfinishedBytes m ++ [v]) 0] := by
  constructor
  · apply List.eq_nil_of_length_eq_zero
    rw [List.length_append, length_unfinishedBytes, List.length_singleton] at h
    rw [length_unfinishedBytes, List.length_append, List.length_singleton]
    omega
  · rw [blocksOf_append_unfinished, blocksOf_of_length_eq h]

end Sys2Proof.Machine

/-!
PROOFS. The hardware and the command-level machine of 40_host_commands.md R140: every state with legal control stands for a
command-level state, the one of the next ready state; an edge at a not-ready port keeps it, an accepted command executes on it.
-/

namespace Sys2Proof.Machine

variable {s t u : State}

/-! How long the port stays not ready (45_compression_sequencer.md section 3). -/

/-- The edges without `rst` until the port is ready, by the place in the transition table: a block is 66 edges, and each
padding operation one before its block. -/
def edgesToReady (s : State) : Nat :=
  if s.PH = Config.phComp then 66 - s.STEP.toNat + if s.RET = Config.phPadl then 67 else 0
  else if s.PH = Config.phPadl then 67
  else if s.PH = Config.phPadf then if lengthFits s.LEN then 67 else 134
  else 0

theorem edgesToReady_le (s : State) : edgesToReady s ≤ 134 := by
  unfold edgesToReady
  split_ifs <;> omega

theorem ControlInv.step_le (hc : ControlInv s) : s.STEP.toNat ≤ 65 := by
  by_cases hp : s.PH = Config.phComp
  · obtain ⟨-, -, hst⟩ := hc
    simpa [stepInPhase, hp] using hst
  · rw [hc.step_eq_zero hp]
    decide

theorem cmdReady_iff_edgesToReady (hc : ControlInv s) : cmdReady s = true ↔ edgesToReady s = 0 := by
  have hst := hc.step_le
  obtain ⟨hp, -, -⟩ := hc
  rcases Config.phase_cases hp with h | h | h | h | h <;> simp [cmdReady, edgesToReady, h]
  · omega
  · split <;> simp

/-- One edge from a not-ready state with legal control: the five kinds of micro-operation. -/
theorem step_notReady_cases (hc : ControlInv s) (hrst : (nextPins s).rst = false) (hr : cmdReady s = false)
    (h : step s = .next t) :
    (s.PH = Config.phPadf ∧ t = formatFirst (consumePins s)) ∨
    (s.PH = Config.phPadl ∧ t = formatLast (consumePins s)) ∨
    (s.PH = Config.phComp ∧ s.STEP = 0#7 ∧ t = loadWorking (consumePins s)) ∨
    (s.PH = Config.phComp ∧ ∃ e : Fin 64, s.STEP.toNat = e.val + 1 ∧ t = sequencerStep e (consumePins s)) ∨
    (s.PH = Config.phComp ∧ s.STEP = 65#7 ∧ t = addBackReturn (consumePins s)) := by
  rcases step_cases hc h with ⟨hrst', -⟩ | ⟨hr', -⟩ | ⟨hr', -⟩ | ⟨hp, -, ht⟩ | ⟨hp, -, ht⟩ | hload | hstep | hback
  · rw [hrst] at hrst'; cases hrst'
  · rw [hr] at hr'; cases hr'
  · rw [hr] at hr'; cases hr'
  · exact .inl ⟨hp, ht⟩
  · exact .inr (.inl ⟨hp, ht⟩)
  · exact .inr (.inr (.inl hload))
  · exact .inr (.inr (.inr (.inl hstep)))
  · exact .inr (.inr (.inr (.inr hback)))

/-- An edge at a not-ready port is one edge less to wait. -/
theorem edgesToReady_step (hc : ControlInv s) (hrst : (nextPins s).rst = false) (hr : cmdReady s = false)
    (h : step s = .next t) : edgesToReady t + 1 = edgesToReady s := by
  rcases step_notReady_cases hc hrst hr h with ⟨hp, rfl⟩ | ⟨hp, rfl⟩ | ⟨hp, h0, rfl⟩ | ⟨hp, e, he, rfl⟩ | ⟨hp, h65, rfl⟩
  · cases hfit : lengthFits s.LEN <;> simp [edgesToReady, hp, hfit]
  · simp [edgesToReady, hp]
  · by_cases hret : s.RET = Config.phPadl <;> simp [edgesToReady, hp, h0, hret]
  · by_cases hret : s.RET = Config.phPadl <;> simp [edgesToReady, hp, he, hret] <;> omega
  · rcases returnLegal_cases hc.ret_legal with hret | hret | hret <;> simp [edgesToReady, hp, h65, hret]

/-- `t` is reached from `s` by `j` edges, at each of which the port was not ready. -/
structure Waited (s t : State) (j : Nat) : Prop where
  run_eq : run j s = .next t
  ctrl : ControlInv t
  left_eq : edgesToReady t + j = edgesToReady s
  inputs_eq : t.inputs = s.inputs.drop j
  trace_eq : acceptedTrace j s = []

theorem exists_waited (hc : ControlInv s) {j : Nat} (hj : j ≤ edgesToReady s) (hno : NoReset j s) :
    ∃ t, Waited s t j := by
  induction j generalizing s with
  | zero => exact ⟨s, rfl, hc, rfl, rfl, rfl⟩
  | succ j ih =>
    obtain ⟨hrst, hno'⟩ := hno.succ
    have hr : cmdReady s = false := by
      rw [← Bool.not_eq_true, cmdReady_iff_edgesToReady hc]
      omega
    obtain ⟨u, hu⟩ := hc.step_next
    have hin := step_inputs_of_noReset hrst hu
    have hleft := edgesToReady_step hc hrst hr hu
    obtain ⟨t, ht⟩ := ih (hc.step hu) (by omega) (hno' u hin)
    refine ⟨t, (run_succ j hu).trans ht.run_eq, ht.ctrl, by rw [← hleft, ← ht.left_eq]; omega, ?_, ?_⟩
    · rw [ht.inputs_eq, hin, List.drop_tail]
    · rw [acceptedTrace_succ j hu, acceptedCommand_notReady hr, ht.trace_eq]
      rfl

theorem Waited.ready (h : Waited s t (edgesToReady s)) : cmdReady t = true := by
  rw [cmdReady_iff_edgesToReady h.ctrl]
  have := h.left_eq
  omega

theorem Waited.notReady {j : Nat} (h : Waited s t j) (hj : j < edgesToReady s) : cmdReady t = false := by
  rw [← Bool.not_eq_true, cmdReady_iff_edgesToReady h.ctrl]
  have := h.left_eq
  omega

/-- Settles O51: the wait is `edgesToReady`, which is at most 134. -/
theorem readyAgainWithin134Edges : Obligations.ReadyAgainWithin134Edges := by
  intro s hc _ hno
  obtain ⟨t, ht⟩ := exists_waited hc le_rfl (hno.mono (edgesToReady_le s))
  exact ⟨edgesToReady s, t, edgesToReady_le s, ht.run_eq, ht.ready⟩

/-! The command-level state of every state with legal control. -/

/-- The message is closed: `FINAL` has been accepted, and the padding is due, in progress or done. -/
def messageClosed (s : State) : Bool :=
  decide (s.PH = Config.phPadf ∨ s.PH = Config.phPadl ∨ s.PH = Config.phDone ∨
    (s.PH = Config.phComp ∧ s.RET ≠ Config.phAbsorb))

theorem digestValid_eq_decide (s : State) : digestValid s = decide (s.PH = Config.phDone) := beq_eq_decide _ _

/-- The block that `PADL` will format. -/
def lengthBlock (s : State) : Buffer := writeLanes s.X (padlLanes s.LEN)

/-- The chaining registers of the next ready state. -/
def pendingChain (s : State) : Chain :=
  if s.PH = Config.phComp then
    if s.RET = Config.phPadl then compress (lengthBlock s) (compressionResult s) else compressionResult s
  else if s.PH = Config.phPadl then compress (lengthBlock s) (chainOf s)
  else if s.PH = Config.phPadf then
    (blocksOf (padTail (bufferedBytes s.X s.LEN) s.LEN)).foldl (fun st x => compress x st) (chainOf s)
  else chainOf s

/-- The command-level state that the next ready state stands for. -/
def pendingState (s : State) : CmdState where
  st := pendingChain s
  buf := if messageClosed s then [] else bufferedBytes s.X s.LEN
  len := s.LEN
  done := messageClosed s
  err := s.ERR

/-- In a ready phase that is the state itself. -/
theorem pendingState_of_ready (hr : cmdReady s = true) : pendingState s = abstractState s := by
  have hp : s.PH = Config.phAbsorb ∨ s.PH = Config.phDone := by simpa [cmdReady] using hr
  rcases hp with hp | hp <;>
    simp [pendingState, abstractState, pendingChain, messageClosed, digestValid_eq_decide, bufferedBytes, hp]

/-- Edges inside a block keep it, since they keep what `compressionResult` and the return read. -/
theorem pendingState_of_comp (hs : s.PH = Config.phComp) (ht : t.PH = Config.phComp) (hret : t.RET = s.RET)
    (hres : compressionResult t = compressionResult s) (hX : t.X = s.X) (hlen : t.LEN = s.LEN) (herr : t.ERR = s.ERR) :
    pendingState t = pendingState s := by
  simp [pendingState, pendingChain, messageClosed, lengthBlock, hs, ht, hret, hres, hX, hlen, herr]

theorem pendingState_formatFirst (hp : s.PH = Config.phPadf) :
    pendingState (formatFirst (consumePins s)) = pendingState s := by
  have hres := compressionResult_entry (formatFirst_STEP (consumePins s))
  cases hfit : lengthFits s.LEN <;>
    simp [pendingState, pendingChain, messageClosed, lengthBlock, blocksOf_padTail, hp, hfit, hres]

theorem pendingState_formatLast (hp : s.PH = Config.phPadl) :
    pendingState (formatLast (consumePins s)) = pendingState s := by
  have hres := compressionResult_entry (formatLast_STEP (consumePins s))
  simp [pendingState, pendingChain, messageClosed, lengthBlock, hp, hres]

theorem pendingState_addBackReturn (hp : s.PH = Config.phComp) (hret : returnLegal s.RET = true) (h65 : s.STEP = 65#7) :
    pendingState (addBackReturn (consumePins s)) = pendingState s := by
  have hres := chainOf_addBackReturn_eq h65
  rcases returnLegal_cases hret with h | h | h <;>
    simp only [pendingState, pendingChain, messageClosed, lengthBlock, addBackReturn_PH, addBackReturn_X, addBackReturn_LEN,
      addBackReturn_ERR, consumePins_X, consumePins_LEN, consumePins_ERR, consumePins_RET, hres, hp, h] <;>
    simp

theorem pendingState_notReady (hc : ControlInv s) (hrst : (nextPins s).rst = false) (hr : cmdReady s = false)
    (h : step s = .next t) : pendingState t = pendingState s := by
  rcases step_notReady_cases hc hrst hr h with ⟨hp, rfl⟩ | ⟨hp, rfl⟩ | ⟨hp, h0, rfl⟩ | ⟨hp, e, he, rfl⟩ | ⟨hp, h65, rfl⟩
  · exact pendingState_formatFirst hp
  · exact pendingState_formatLast hp
  · exact pendingState_of_comp hp hp rfl (compressionResult_loadWorking h0) rfl rfl rfl
  · exact pendingState_of_comp hp (by simp [hp]) (by simp) (compressionResult_sequencerStep e he) (by simp) (by simp) (by simp)
  · exact pendingState_addBackReturn hp hc.ret_legal h65

/-! The four commands. -/

theorem pendingState_startMessage (s : State) :
    pendingState (startMessage s) = cmdExec .init (abstractState s) := by
  simp [pendingState, pendingChain, messageClosed, cmdExec, abstractState, bufferedBytes, fillIndex]

theorem pendingState_raiseProtocolError (hp : s.PH = Config.phAbsorb ∨ s.PH = Config.phDone) :
    pendingState (raiseProtocolError s) = { abstractState s with err := true } := by
  have hr : cmdReady (raiseProtocolError s) = true := by simpa [cmdReady] using hp
  rw [pendingState_of_ready hr]
  rfl

theorem pendingState_closeMessage (hp : s.PH = Config.phAbsorb) :
    pendingState (closeMessage s) = cmdExec .final (abstractState s) := by
  simp [pendingState, pendingChain, messageClosed, cmdExec, abstractState, digestValid_eq_decide, bufferedBytes, hp]

theorem fillIndex_add8_of_full {len : BitVec 64} (h : fillsBuffer len = true) : (fillIndex (len + 8#64)).toNat = 0 := by
  rw [fillIndex_add8, (fillsBuffer_iff len).mp h]

theorem fillIndex_add8_of_not_full {len : BitVec 64} (h : fillsBuffer len = false) :
    (fillIndex (len + 8#64)).toNat = (fillIndex len).toNat + 1 ∧ (fillIndex len).toNat + 1 < 64 := by
  have hn : (fillIndex len).toNat < 64 := (fillIndex len).isLt
  have h63 : (fillIndex len).toNat ≠ 63 := by rw [Ne, ← fillsBuffer_iff, h]; decide
  rw [fillIndex_add8]
  omega

/-- A byte stored in the buffer is appended to the bytes of the current block. -/
theorem bufferedBytes_memWriteByte (x : Buffer) {len : BitVec 64} (h : fillsBuffer len = false) (v : Byte) :
    bufferedBytes (memWriteByte x (fillAddr len) v) (len + 8#64) = bufferedBytes x len ++ [v] := by
  rw [bufferedBytes, (fillIndex_add8_of_not_full h).1]
  exact take_blockBytesOf_memWriteByte x (fillAddr len) v

theorem abstractState_absorb (hp : s.PH = Config.phAbsorb) :
    abstractState s = ⟨chainOf s, bufferedBytes s.X s.LEN, s.LEN, false, s.ERR⟩ := by
  simp [abstractState, digestValid_eq_decide, bufferedBytes, hp]

theorem pendingState_absorbByte (hp : s.PH = Config.phAbsorb) (v : Byte) :
    pendingState (absorbByte v s) = cmdExec (.data v) (abstractState s) := by
  rw [abstractState_absorb hp]
  cases hfull : fillsBuffer s.LEN with
  | false =>
    have hlt := (fillIndex_add8_of_not_full hfull).2
    have hlen : ¬ (bufferedBytes s.X s.LEN ++ [v]).length = Config.blockBytes := by
      rw [List.length_append, length_bufferedBytes, List.length_singleton, Config.blockBytes]
      omega
    have hr : cmdReady (storeByte v s) = true := by simp [cmdReady, hp]
    rw [absorbByte_of_not_full s v hfull, pendingState_of_ready hr, abstractState_absorb (by simp [hp])]
    simp only [cmdExec, hlen, if_false, Bool.false_eq_true, storeByte_X, storeByte_LEN, storeByte_ERR, chainOf_storeByte,
      bufferedBytes_memWriteByte s.X hfull v]
  | true =>
    have h63 : (fillAddr s.LEN).val = 63 := (fillsBuffer_iff s.LEN).mp hfull
    have hlen : (bufferedBytes s.X s.LEN ++ [v]).length = Config.blockBytes := by
      rw [List.length_append, length_bufferedBytes, (fillsBuffer_iff s.LEN).mp hfull]
      rfl
    have hblock : blockAt (bufferedBytes s.X s.LEN ++ [v]) 0 = memWriteByte s.X (fillAddr s.LEN) v :=
      blockAt_take_append s.X h63 v
    have hres := compressionResult_entry (enterCompression_STEP (storeByte v s) Config.phAbsorb)
    have hempty (x : Buffer) : bufferedBytes x (s.LEN + 8#64) = [] := by
      rw [bufferedBytes, fillIndex_add8_of_full hfull, List.take_zero]
    rw [absorbByte_of_full s v hfull]
    simp only [cmdExec, hlen, hblock, if_true, if_false, Bool.false_eq_true]
    simp [pendingState, pendingChain, messageClosed, hres, hempty]

/-- The sample an edge uses up is no part of what a state stands for. -/
theorem abstractState_consumePins (s : State) : abstractState (consumePins s) = abstractState s := rfl

theorem cmdExec_dropped {i : Instr} {c : CmdState} (hdone : c.done = true)
    (hi : (∃ v, i = .data v) ∨ i = .final ∨ i = .rsvd) : cmdExec i c = { c with err := true } := by
  rcases hi with ⟨v, rfl⟩ | rfl | rfl
  · exact if_pos hdone
  · exact if_pos hdone
  · rfl

/-- A command that is accepted has on the command-level state the effect of that machine (R140). -/
theorem pendingState_accepted {i : Instr} (hc : ControlInv s) (h : acceptedCommand s = some i) (hstep : step s = .next t) :
    pendingState t = cmdExec i (abstractState s) := by
  obtain ⟨-, -, hr, -⟩ := acceptedCommand_eq_some h
  have hp : (consumePins s).PH = Config.phAbsorb ∨ (consumePins s).PH = Config.phDone := (hc.ready hr).1
  rw [hc.step_accepted h] at hstep
  rw [← abstractState_consumePins]
  generalize consumePins s = u at hp hstep
  rcases acceptedCommand_cases h with rfl | hi
  · rw [exec_init, commandByPhase_ready hp] at hstep; cases hstep
    exact pendingState_startMessage u
  · rcases hp with hp | hp
    · rcases hi with ⟨v, rfl⟩ | rfl | rfl
      · rw [exec_data, commandByPhase_absorb hp] at hstep; cases hstep
        exact pendingState_absorbByte hp v
      · rw [exec_final, commandByPhase_absorb hp] at hstep; cases hstep
        exact pendingState_closeMessage hp
      · rw [exec_rsvd, commandByPhase_absorb hp] at hstep; cases hstep
        exact pendingState_raiseProtocolError (.inl hp)
    · rw [exec_dropped_of_done hp hi] at hstep; cases hstep
      rw [pendingState_raiseProtocolError (.inr hp), cmdExec_dropped (by simp [abstractState, digestValid, hp]) hi]

/-! Runs without reset. -/

/-- The commands of a list executed one after the other on the command-level machine. -/
def cmdRun (l : List Instr) (c : CmdState) : CmdState := l.foldl (fun c i => cmdExec i c) c

theorem pendingState_step (hc : ControlInv s) (hrst : (nextPins s).rst = false) (h : step s = .next t) :
    pendingState t = cmdRun (acceptedCommand s).toList (pendingState s) := by
  cases hr : cmdReady s with
  | false => rw [acceptedCommand_notReady hr, pendingState_notReady hc hrst hr h]; rfl
  | true =>
    cases hi : acceptedCommand s with
    | none =>
      rw [hc.step_notOffered hrst hr hi] at h; cases h
      rw [pendingState_of_ready hr]
      exact pendingState_of_ready hr
    | some i => rw [pendingState_accepted hc hi h, pendingState_of_ready hr]; rfl

/-- The run of the hardware is the run of the accepted commands on the command-level machine. -/
theorem run_pendingState (hc : ControlInv s) {k : Nat} (hno : NoReset k s) :
    ∃ t, run k s = .next t ∧ ControlInv t ∧ t.inputs = s.inputs.drop k ∧
      pendingState t = cmdRun (acceptedTrace k s) (pendingState s) := by
  induction k generalizing s with
  | zero => exact ⟨s, rfl, hc, rfl, rfl⟩
  | succ k ih =>
    obtain ⟨hrst, hno'⟩ := hno.succ
    obtain ⟨u, hu⟩ := hc.step_next
    have hin := step_inputs_of_noReset hrst hu
    obtain ⟨t, hrun, hct, hint, hpend⟩ := ih (hc.step hu) (hno' u hin)
    refine ⟨t, (run_succ k hu).trans hrun, hct, by rw [hint, hin, List.drop_tail], ?_⟩
    rw [hpend, pendingState_step hc hrst hu, acceptedTrace_succ k hu, cmdRun, cmdRun, cmdRun, List.foldl_append]

theorem Waited.pendingState_eq (hc : ControlInv s) {j : Nat} (hno : NoReset j s) (h : Waited s t j) :
    pendingState t = pendingState s := by
  obtain ⟨t', hrun, -, -, hpend⟩ := run_pendingState hc hno
  obtain rfl : t = t' := Host.Outcome.next.inj (h.run_eq.symm.trans hrun)
  rw [hpend, h.trace_eq]
  rfl

theorem digestValid_of_notReady (hr : cmdReady s = false) : digestValid s = false := by
  simp only [cmdReady, Bool.or_eq_false_iff] at hr
  exact hr.2

theorem abstractState_reset : abstractState State.reset = cmdReset := rfl

theorem abstractState_resetEdge (s : State) : abstractState (resetEdge s) = cmdReset := by
  simp [abstractState, cmdReset, digestValid, fillIndex]

/-- Settles O59: the edge of the command gives a state that stands for its result (`pendingState_accepted`); the edges of the
wait keep that (`Waited.pendingState_eq`), and the ready state they end in stands for itself. -/
theorem commandLevelMachineIsImplemented : Obligations.CommandLevelMachineIsImplemented := by
  refine ⟨abstractState_reset, fun s t hrst h => ?_, fun s i hc hr hi hno => ?_⟩
  · rw [eq_resetEdge_of_step hrst h]
    exact abstractState_resetEdge _
  · obtain ⟨u, hu⟩ := hc.step_next
    obtain ⟨hrst, hno'⟩ := hno.succ
    have hin := step_inputs_of_noReset hrst hu
    have hcu := hc.step hu
    have hle := edgesToReady_le u
    have hnou {j : Nat} (hj : j ≤ 134) : NoReset j u := (hno' u hin).mono hj
    obtain ⟨t, ht⟩ := exists_waited hcu le_rfl (hnou hle)
    refine ⟨edgesToReady u, t, hle, (run_succ _ hu).trans ht.run_eq, ht.ctrl, ht.ready, ?_, ?_, fun j hpos hj => ?_⟩
    · rw [← pendingState_of_ready ht.ready, ht.pendingState_eq hcu (hnou hle), pendingState_accepted hc hi hu]
    · rw [ht.inputs_eq, hin, List.drop_tail]
    · obtain ⟨v, hv⟩ := exists_waited hcu (j := j - 1) (by omega) (hnou (by omega))
      have hnr := hv.notReady (by omega)
      refine ⟨v, ?_, hnr, digestValid_of_notReady hnr⟩
      rw [← Nat.sub_add_cancel hpos]
      exact (run_succ _ hu).trans hv.run_eq

end Sys2Proof.Machine

/-!
PROOFS. The digest of a message (40_host_commands.md section 1): the command-level machine computes `md5_digest`, and so does the
hardware.
-/

namespace Sys2Proof.Machine

variable {s t : State}

/-- After `DATA` of each byte of `m`: the whole blocks are compressed, the rest is in the buffer, and the length is that of
`m` in bits modulo 2^64. -/
theorem cmdRun_data (m : List Byte) (err : Bool) :
    cmdRun (m.map .data) ⟨iv, [], 0#64, false, err⟩ =
      ⟨(blocksOf m).foldl (fun st x => compress x st) iv, unfinishedBytes m, BitVec.ofNat 64 (8 * m.length), false, err⟩ := by
  induction m using List.reverseRecOn with
  | nil => rfl
  | append_singleton m v ih =>
    have hlen : BitVec.ofNat 64 (8 * (m ++ [v]).length) = BitVec.ofNat 64 (8 * m.length) + 8#64 := by
      rw [List.length_append, List.length_singleton, Nat.mul_succ, BitVec.ofNat_add]
    have hrun : cmdRun ((m ++ [v]).map .data) ⟨iv, [], 0#64, false, err⟩ =
        cmdExec (.data v) (cmdRun (m.map .data) ⟨iv, [], 0#64, false, err⟩) := by
      simp [cmdRun]
    rw [hrun, ih, hlen]
    by_cases hfull : (unfinishedBytes m ++ [v]).length = Config.blockBytes
    · obtain ⟨hrest, hblocks⟩ := unfinishedBytes_append_singleton_full hfull
      simp only [cmdExec, hfull, hrest, hblocks, Bool.false_eq_true, if_false, if_true, List.foldl_append, List.foldl_cons,
        List.foldl_nil]
    · obtain ⟨hrest, hblocks⟩ := unfinishedBytes_append_singleton hfull
      simp only [cmdExec, hfull, hrest, hblocks, Bool.false_eq_true, if_false]

/-- `DATA` of each byte and `FINAL`: the chaining words are those of which `md5_digest` is the `finalize` (R130). -/
theorem cmdRun_message (m : List Byte) (err : Bool) :
    cmdRun (m.map .data ++ [.final]) ⟨iv, [], 0#64, false, err⟩ =
      ⟨(blocksOf (pad m)).foldl (fun st x => compress x st) iv, [], BitVec.ofNat 64 (8 * m.length), true, err⟩ := by
  have hrun : cmdRun (m.map .data ++ [.final]) ⟨iv, [], 0#64, false, err⟩ =
      cmdExec .final (cmdRun (m.map .data) ⟨iv, [], 0#64, false, err⟩) := by
    simp [cmdRun]
  rw [hrun, cmdRun_data, blocksOf_pad, List.foldl_append]
  rfl

theorem acceptedTrace_add {j : Nat} (k : Nat) (h : run j s = .next t) :
    acceptedTrace (j + k) s = acceptedTrace j s ++ acceptedTrace k t := by
  induction j generalizing s with
  | zero => cases h; simp [acceptedTrace]
  | succ j ih =>
    obtain ⟨u, hu, hrun⟩ := exists_step_of_run_succ h
    rw [Nat.add_right_comm, acceptedTrace_succ _ hu, acceptedTrace_succ _ hu, ih hrun, List.append_assoc]

/-- A state in `ABSORB` at the start of a message. -/
theorem pendingState_start (hp : s.PH = Config.phAbsorb) (hlen : s.LEN = 0#64) (hiv : chainOf s = iv) :
    pendingState s = ⟨iv, [], 0#64, false, s.ERR⟩ := by
  rw [pendingState_of_ready (by simp [cmdReady, hp]), abstractState_absorb hp, hiv, hlen]
  rfl

/-- A ready state whose command-level state is done is one in `DONE`. -/
theorem done_of_ready (hr : cmdReady t = true) (hdone : (pendingState t).done = true) : t.PH = Config.phDone := by
  rw [pendingState_of_ready hr] at hdone
  simpa [abstractState, digestValid] using hdone

/-- Settles O60: after `k` edges the hardware stands for the command-level state of the whole message (`run_pendingState`,
`cmdRun_message`); the wait for the port leads to that state in `DONE`, and the digest stays there (O55). -/
theorem digestOfEveryMessage : Obligations.DigestOfEveryMessage := by
  intro s m k hc hp hlen hiv hno htrace
  obtain ⟨t, hrun, hct, hin, hpend⟩ := run_pendingState hc hno
  rw [htrace, pendingState_start hp hlen hiv, cmdRun_message] at hpend
  have htail (n : Nat) : acceptedTrace (k + n) s = m.map .data ++ [.final] ↔ acceptedTrace n t = [] := by
    rw [acceptedTrace_add n hrun, htrace, List.append_right_eq_self]
  refine ⟨edgesToReady t, edgesToReady_le t, fun hno' => ?_, fun n hn hno' htr => ?_⟩
  · obtain ⟨u, hu⟩ := exists_waited hct le_rfl (hno'.drop hin)
    exact (htail _).mpr hu.trace_eq
  · obtain ⟨d, rfl⟩ := Nat.exists_eq_add_of_le hn
    have hnot : NoReset (edgesToReady t + d) t := hno'.drop hin
    have hnow := hnot.mono (Nat.le_add_right _ d)
    obtain ⟨u, hu⟩ := exists_waited hct le_rfl hnow
    have hpu : pendingState u = _ := (hu.pendingState_eq hct hnow).trans hpend
    have hdone : u.PH = Config.phDone := done_of_ready hu.ready (by rw [hpu])
    have hidle : acceptedTrace d u = [] := by
      have h := (htail _).mp htr
      rw [acceptedTrace_add d hu.run_eq, hu.trace_eq] at h
      exact h
    obtain ⟨v, hrunv, hpv, -, hdig⟩ := digestStaysUntilInitOrReset d u hu.ctrl hdone (hnot.drop hu.inputs_eq) (by simp [hidle])
    have hchain : md5Digest m = finalize (chainOf u) := by
      rw [pendingState_of_ready hu.ready] at hpu
      exact congrArg (fun c => finalize c.st) hpu.symm
    refine ⟨v, ?_, hpv, ?_, ?_, fun b hb => ?_⟩
    · rw [run_add k _ hrun, run_add _ d hu.run_eq, hrunv]
    · rw [hdig, hchain, digest_eq_unle128]
    · rw [hchain, length_finalize]
    · rw [hdig, hchain, getElem?_finalize u hb]

end Sys2Proof.Machine

/-!
PROOFS. What reset leaves unspecified is never observed (10_state.md R47 (d) to (f), R60): the relation `Agree` is kept by every
edge.
-/

namespace Sys2Proof.Machine

variable {s t : State}

/-! Two states that agree, as one state and the contents of the buffer and of the working registers of the other. -/

/-- The state with another buffer and other working registers. -/
def withScratch (s : State) (x : Buffer) (w : Chain) : State :=
  { s with X := x, a := w.A, b := w.B, c := w.C, d := w.D }

@[simp] theorem withScratch_LEN (s : State) (x : Buffer) (w : Chain) : (withScratch s x w).LEN = s.LEN := rfl

@[simp] theorem withScratch_X (s : State) (x : Buffer) (w : Chain) : (withScratch s x w).X = x := rfl

theorem agree_withScratch {x : Buffer} {w : Chain} (hx : ∀ j, liveByte s j → readByte s.X j = readByte x j)
    (hw : workingLive s → workingOf s = w) : Agree s (withScratch s x w) :=
  ⟨rfl, rfl, rfl, rfl, rfl, rfl, rfl, hx, hw⟩

theorem Agree.eq_withScratch (h : Agree s t) : t = withScratch s t.X (workingOf t) := by
  obtain ⟨hchain, hlen, hph, hret, hstep, herr, hin, -, -⟩ := h
  obtain ⟨hA, hB, hC, hD⟩ := Chain.mk.inj hchain
  rw [withScratch, hA, hB, hC, hD, hlen, hph, hret, hstep, herr, hin]
  rfl

theorem Agree.refl (s : State) : Agree s s :=
  ⟨rfl, rfl, rfl, rfl, rfl, rfl, rfl, fun _ _ => rfl, fun _ => rfl⟩

theorem Agree.PH_eq (h : Agree s t) : t.PH = s.PH := by
  rw [h.eq_withScratch]; rfl

theorem Agree.STEP_eq (h : Agree s t) : t.STEP = s.STEP := by
  rw [h.eq_withScratch]; rfl

theorem Agree.inputs_eq (h : Agree s t) : t.inputs = s.inputs := by
  rw [h.eq_withScratch]; rfl

/-- What two states that agree show a host. -/
theorem Agree.outputs (h : Agree s t) :
    cmdReady s = cmdReady t ∧ digestValid s = digestValid t ∧ digest s = digest t ∧ err s = err t := by
  rw [h.eq_withScratch]
  exact ⟨rfl, rfl, rfl, rfl⟩

/-! The live bytes and registers by phase. -/

theorem liveByte_comp (hp : s.PH = Config.phComp) (j : Fin 64) : liveByte s j := by
  simp [liveByte, hp]

theorem liveByte_iff_lt (hp : s.PH = Config.phAbsorb ∨ s.PH = Config.phPadf) (j : Fin 64) :
    liveByte s j ↔ j.val < (fillIndex s.LEN).toNat := by
  rcases hp with hp | hp <;> simp [liveByte, hp]

/-- At the start of a message no byte is live. -/
theorem not_liveByte_of_empty (hp : s.PH = Config.phAbsorb) (hlen : s.LEN = 0#64) (j : Fin 64) : ¬ liveByte s j := by
  rw [liveByte_iff_lt (.inl hp), hlen]
  exact Nat.not_lt_zero _

theorem not_workingLive_of_phase (hp : s.PH ≠ Config.phComp) : ¬ workingLive s := fun h => hp h.1

theorem not_workingLive_of_step (h0 : s.STEP = 0#7) : ¬ workingLive s := fun h => h.2 h0

/-- In `COMP` the whole buffer is live. -/
theorem Agree.X_eq (h : Agree s t) (hp : s.PH = Config.phComp) : t.X = s.X := by
  obtain ⟨-, -, -, -, -, -, -, hx, -⟩ := h
  exact (buffer_ext fun j => hx j (liveByte_comp hp j)).symm

/-- While the working registers are live too, nothing is dead. -/
theorem Agree.eq_of_working (h : Agree s t) (hp : s.PH = Config.phComp) (hstep : s.STEP ≠ 0#7) : t = s := by
  have hX := h.X_eq hp
  have hts := h.eq_withScratch
  obtain ⟨-, -, -, -, -, -, -, -, hw⟩ := h
  rw [hts, hX, ← hw ⟨hp, hstep⟩]
  rfl

/-! The operations of an edge, each in the phase in which it runs. -/

theorem Agree.consumePins (h : Agree s t) : Agree (consumePins s) (consumePins t) := by
  have hts := h.eq_withScratch
  obtain ⟨-, -, -, -, -, -, -, hx, hw⟩ := h
  rw [hts]
  exact agree_withScratch hx hw

/-- After a reset edge, as after `INIT`, the length is 0: no byte is live. -/
theorem agree_resetEdge (h : s.inputs = t.inputs) : Agree (resetEdge s) (resetEdge t) := by
  refine ⟨rfl, rfl, rfl, rfl, rfl, rfl, h, fun j hj => ?_, fun hw => ?_⟩
  · exact absurd hj (not_liveByte_of_empty rfl rfl j)
  · exact absurd hw (not_workingLive_of_phase (by simp))

theorem Agree.startMessage (h : Agree s t) : Agree (startMessage s) (startMessage t) := by
  rw [h.eq_withScratch]
  refine agree_withScratch (s := Machine.startMessage s) (fun j hj => ?_) fun hw => ?_
  · exact absurd hj (not_liveByte_of_empty rfl rfl j)
  · exact absurd hw (not_workingLive_of_phase (by simp))

theorem Agree.raiseProtocolError (h : Agree s t) : Agree (raiseProtocolError s) (raiseProtocolError t) := by
  have hts := h.eq_withScratch
  obtain ⟨-, -, -, -, -, -, -, hx, hw⟩ := h
  rw [hts]
  exact agree_withScratch hx hw

theorem Agree.closeMessage (h : Agree s t) (hp : s.PH = Config.phAbsorb) : Agree (closeMessage s) (closeMessage t) := by
  have hts := h.eq_withScratch
  obtain ⟨-, -, -, -, -, -, -, hx, -⟩ := h
  rw [hts]
  refine agree_withScratch (s := Machine.closeMessage s) (fun j hj => ?_) fun hw => ?_
  · rw [liveByte_iff_lt (.inr rfl)] at hj
    exact hx j ((liveByte_iff_lt (.inl hp) j).mpr hj)
  · exact absurd hw (not_workingLive_of_phase (by simp))

/-- A byte stored at the fill index: the bytes up to it agree if those below it did. -/
theorem Agree.readByte_memWriteByte (h : Agree s t) (hp : s.PH = Config.phAbsorb) (v : Byte) {j : Fin 64}
    (hj : j.val ≤ (fillIndex s.LEN).toNat) :
    readByte (memWriteByte s.X (fillAddr s.LEN) v) j = readByte (memWriteByte t.X (fillAddr s.LEN) v) j := by
  obtain ⟨-, -, -, -, -, -, -, hx, -⟩ := h
  by_cases hat : j = fillAddr s.LEN
  · rw [hat, readByte_memWriteByte_same, readByte_memWriteByte_same]
  · have hlt : j.val < (fillIndex s.LEN).toNat := lt_of_le_of_ne hj fun h => hat (Fin.ext h)
    rw [readByte_memWriteByte_other _ v hat, readByte_memWriteByte_other _ v hat]
    exact hx j ((liveByte_iff_lt (.inl hp) j).mpr hlt)

theorem Agree.absorbByte (h : Agree s t) (hp : s.PH = Config.phAbsorb) (v : Byte) :
    Agree (absorbByte v s) (absorbByte v t) := by
  have hbyte {j : Fin 64} := h.readByte_memWriteByte hp v (j := j)
  have hts := h.eq_withScratch
  cases hfull : fillsBuffer s.LEN with
  | false =>
    have hfull' : fillsBuffer t.LEN = false := by rw [hts]; exact hfull
    rw [absorbByte_of_not_full s v hfull, absorbByte_of_not_full t v hfull', hts]
    refine agree_withScratch (s := storeByte v s) (fun j hj => hbyte ?_) fun hw => ?_
    · rw [liveByte_iff_lt (s := storeByte v s) (.inl (by simp [hp])), storeByte_LEN, (fillIndex_add8_of_not_full hfull).1] at hj
      omega
    · exact absurd hw (not_workingLive_of_phase (by simp [hp]))
  | true =>
    have hfull' : fillsBuffer t.LEN = true := by rw [hts]; exact hfull
    have h63 : (fillIndex s.LEN).toNat = 63 := (fillsBuffer_iff s.LEN).mp hfull
    rw [absorbByte_of_full s v hfull, absorbByte_of_full t v hfull', hts]
    refine agree_withScratch (s := enterCompression Config.phAbsorb (storeByte v s)) (fun j _ => hbyte ?_) fun hw => ?_
    · omega
    · exact absurd hw (not_workingLive_of_step rfl)

/-- `PADF` writes every byte that was dead. -/
theorem Agree.formatFirst (h : Agree s t) (hp : s.PH = Config.phPadf) : Agree (formatFirst s) (formatFirst t) := by
  have hts := h.eq_withScratch
  obtain ⟨-, -, -, -, -, -, -, hx, -⟩ := h
  rw [hts]
  refine agree_withScratch (s := Machine.formatFirst s) (fun j _ => ?_) fun hw => ?_
  · rw [formatFirst_X, withScratch_LEN, withScratch_X, readByte_writeLanes, readByte_writeLanes]
    rcases lt_trichotomy j.val (fillIndex s.LEN).toNat with hbelow | hat | habove
    · rw [hx j ((liveByte_iff_lt (.inr hp) j).mpr hbelow)]
    · rw [padfLanes_at hat, Option.getD_some, Option.getD_some]
    · rw [padfLanes_above habove, Option.getD_some, Option.getD_some]
  · exact absurd hw (not_workingLive_of_step (by simp))

/-- `PADL` writes every byte. -/
theorem Agree.formatLast (h : Agree s t) : Agree (formatLast s) (formatLast t) := by
  rw [h.eq_withScratch]
  refine agree_withScratch (s := Machine.formatLast s) (fun j _ => ?_) fun hw => ?_
  · rw [formatLast_X, readByte_writeLanes, readByte_writeLanes, padlLanes, padlLanes]
    split <;> rfl
  · exact absurd hw (not_workingLive_of_step (by simp))

/-- `LOAD` writes every working register. -/
theorem Agree.loadWorking_eq (h : Agree s t) (hp : s.PH = Config.phComp) : loadWorking t = loadWorking s := by
  rw [h.eq_withScratch, h.X_eq hp]
  rfl

/-! One edge. -/

theorem Agree.nextPins_eq (h : Agree s t) : nextPins t = nextPins s := by
  rw [h.eq_withScratch]; rfl

theorem Agree.controlInv (h : Agree s t) (hc : ControlInv s) : ControlInv t := by
  rw [h.eq_withScratch]; exact hc

theorem Agree.acceptedCommand_eq (h : Agree s t) : acceptedCommand t = acceptedCommand s := by
  rw [h.eq_withScratch]; rfl

/-- A command accepted in two states that agree. -/
theorem Agree.exec_accepted {i : Instr} (h : Agree s t) (hp : s.PH = Config.phAbsorb ∨ s.PH = Config.phDone)
    (hi : i = .init ∨ (∃ v, i = .data v) ∨ i = .final ∨ i = .rsvd) :
    ∃ s' t', exec i s = .next s' ∧ exec i t = .next t' ∧ Agree s' t' := by
  have hpt : t.PH = s.PH := h.PH_eq
  rcases hi with rfl | hi
  · refine ⟨_, _, ?_, ?_, h.startMessage⟩
    · rw [exec_init, commandByPhase_ready hp]
    · rw [exec_init, commandByPhase_ready (hpt ▸ hp)]
  · rcases hp with hp | hp
    · rcases hi with ⟨v, rfl⟩ | rfl | rfl
      · refine ⟨_, _, ?_, ?_, h.absorbByte hp v⟩
        · rw [exec_data, commandByPhase_absorb hp]
        · rw [exec_data, commandByPhase_absorb (hpt.trans hp)]
      · refine ⟨_, _, ?_, ?_, h.closeMessage hp⟩
        · rw [exec_final, commandByPhase_absorb hp]
        · rw [exec_final, commandByPhase_absorb (hpt.trans hp)]
      · refine ⟨_, _, ?_, ?_, h.raiseProtocolError⟩
        · rw [exec_rsvd, commandByPhase_absorb hp]
        · rw [exec_rsvd, commandByPhase_absorb (hpt.trans hp)]
    · exact ⟨_, _, exec_dropped_of_done hp hi, exec_dropped_of_done (hpt.trans hp) hi, h.raiseProtocolError⟩

/-- Every edge keeps the relation. Where a dead byte or register becomes live, the edge writes it. -/
theorem Agree.step (h : Agree s t) (hc : ControlInv s) :
    ∃ s' t', step s = .next s' ∧ step t = .next t' ∧ Agree s' t' := by
  have hct := h.controlInv hc
  cases hrst : (nextPins s).rst with
  | true =>
    have hrst' : (nextPins t).rst = true := by rw [h.nextPins_eq, hrst]
    exact ⟨_, _, step_reset hrst, step_reset hrst', agree_resetEdge h.consumePins.inputs_eq.symm⟩
  | false =>
    have hrst' : (nextPins t).rst = false := by rw [h.nextPins_eq, hrst]
    have hph : t.PH = s.PH := h.PH_eq
    have hst : t.STEP = s.STEP := h.STEP_eq
    obtain ⟨s', hs'⟩ := hc.step_next
    rcases step_cases hc hs' with ⟨hreset, -⟩ | ⟨hr, hi, -⟩ | ⟨hr, i, hi, -⟩ | ⟨hp, h0, -⟩ | ⟨hp, h0, -⟩ | ⟨hp, h0, -⟩ |
      ⟨hp, e, he, -⟩ | ⟨hp, h65, -⟩
    · rw [hrst] at hreset; cases hreset
    · obtain ⟨hready, -, -, -⟩ := h.outputs
      exact ⟨_, _, hc.step_notOffered hrst hr hi,
        hct.step_notOffered hrst' (hready ▸ hr) (h.acceptedCommand_eq.trans hi), h.consumePins⟩
    · rw [hc.step_accepted hi, hct.step_accepted (h.acceptedCommand_eq.trans hi)]
      exact h.consumePins.exec_accepted (hc.ready hr).1 (acceptedCommand_cases hi)
    · exact ⟨_, _, step_padf hrst hp h0, step_padf hrst' (hph.trans hp) (hst.trans h0), h.consumePins.formatFirst hp⟩
    · exact ⟨_, _, step_padl hrst hp h0, step_padl hrst' (hph.trans hp) (hst.trans h0), h.consumePins.formatLast⟩
    · refine ⟨_, _, step_load hrst hp hc.ret_legal h0, step_load hrst' (hph.trans hp) hct.ret_legal (hst.trans h0), ?_⟩
      rw [h.consumePins.loadWorking_eq hp]
      exact Agree.refl _
    · obtain rfl := h.eq_of_working hp fun h0 => by simp [h0] at he
      exact ⟨s', s', hs', hs', Agree.refl s'⟩
    · obtain rfl := h.eq_of_working hp fun h0 => by simp [h0] at h65
      exact ⟨s', s', hs', hs', Agree.refl s'⟩

/-- Settles O58: the relation is kept (`Agree.step`), it determines the outputs (`Agree.outputs`), and a reset edge makes any
two states with the same inputs agree. -/
theorem unspecifiedValuesAreNeverObserved : Obligations.UnspecifiedValuesAreNeverObserved := by
  refine ⟨fun s t hc h => ?_, fun s t hin hrst => ?_⟩
  · obtain ⟨s', t', hs', ht', h'⟩ := h.step hc
    exact ⟨s', t', hs', ht', h', h'.outputs⟩
  · have hrst' : (nextPins t).rst = true := by rw [nextPins, ← hin]; exact hrst
    have hin' : (consumePins s).inputs = (consumePins t).inputs := congrArg List.tail hin
    exact ⟨_, _, step_reset hrst, step_reset hrst', agree_resetEdge hin'⟩

end Sys2Proof.Machine
